-- ==== Sys2Proof/Word.lean ====
section
/-! DEFINITION. The byte of the links and buses, and counts that stop at a maximum. -/

namespace Sys2Proof

/-- One byte of a frame (R161) or of a Module Reply (R23). -/
abbrev Byte := BitVec 8

/-- The largest 8-bit count. -/
abbrev max8 : Nat := 255
/-- The largest 16-bit count. -/
abbrev max16 : Nat := 65535
/-- The largest 32-bit count. -/
abbrev max32 : Nat := 4294967295

/-- A counter that stops at `top` instead of wrapping, raised by one. -/
def raise (top n : Nat) : Nat := if n < top then n + 1 else top

end Sys2Proof
end

