-- ==== Sys2Proof/Machine/Table.lean ====
section
/-! DEFINITION. Tables kept by number (cells, channels, slots, sights, zones, coils) as sparse lists in
one canonical form: the numbers strictly rise, and no entry equals what an unlisted number reads as (log entry 30, DEDUCED, safe). -/

namespace Sys2Proof.Machine

/-- A table by number; a number that is not listed has no entry. -/
abbrev Table (α : Type) := List (Nat × α)

/-- The entry of number `k`, if there is one. -/
def Table.find {α : Type} : Table α → Nat → Option α
  | [], _ => none
  | (j, v) :: t, k => if j = k then some v else Table.find t k

/-- The table with `k` removed. -/
def Table.erase {α : Type} : Table α → Nat → Table α
  | [], _ => []
  | (j, v) :: t, k => if j = k then t else (j, v) :: Table.erase t k

/-- The table with the entry of `k` set to `v`, in its place by number. -/
def Table.insert {α : Type} : Table α → Nat → α → Table α
  | [], k, v => [(k, v)]
  | (j, w) :: t, k, v =>
    if k < j then (k, v) :: (j, w) :: t
    else if k = j then (k, v) :: t
    else (j, w) :: Table.insert t k v

/-- The entry of `k`, or `blank` where there is none. -/
def Table.get {α : Type} (blank : α) (t : Table α) (k : Nat) : α := (Table.find t k).getD blank

/-- Writes `v` at `k`; writing `blank` removes the entry. -/
def Table.put {α : Type} [DecidableEq α] (blank : α) (t : Table α) (k : Nat) (v : α) : Table α :=
  if v = blank then Table.erase t k else Table.insert t k v

/-- Sets or removes the entry of `k`. -/
def Table.set {α : Type} (t : Table α) (k : Nat) : Option α → Table α
  | none => Table.erase t k
  | some v => Table.insert t k v

/-- The table with only the numbers that `keep` holds for. -/
def Table.restrict {α : Type} (keep : Nat → Bool) (t : Table α) : Table α :=
  t.filter fun entry => keep entry.1

/-- The table with every entry changed by `f`. -/
def Table.mapEntries {α β : Type} (f : Nat → α → β) (t : Table α) : Table β :=
  t.map fun entry => (entry.1, f entry.1 entry.2)

/-- The numbers strictly rise. -/
def Table.rising {α : Type} : Table α → Bool
  | [] => true
  | [_] => true
  | (j, _) :: (k, w) :: t => decide (j < k) && Table.rising ((k, w) :: t)

/-- No entry equals `blank`. -/
def Table.noBlank {α : Type} [DecidableEq α] (blank : α) (t : Table α) : Bool :=
  t.all fun entry => decide (entry.2 ≠ blank)

/-- Every listed number is below `bound`. -/
def Table.below {α : Type} (bound : Nat) (t : Table α) : Bool :=
  t.all fun entry => decide (entry.1 < bound)

end Sys2Proof.Machine
end

