-- ==== Sys2Proof/Syntax.lean ====
section
/-! DEFINITION. The commands of spec/opcode_table.json, one constructor per row, with their operands. -/

namespace Sys2Proof

/-- The three links (00_scope.md, Numbering). -/
inductive Link
  | a | b | e
  deriving DecidableEq, Repr

/-- The kind a Request Sweep carries (R55); `other` is a kind byte that names neither. -/
inductive SweepKindArg
  | full
  | coil (k : Nat)
  | other (code : Nat)
  deriving DecidableEq, Repr

/-- The two forms of Clear Peaks (R116). -/
inductive ClearPeaksForm
  | coil (k : Nat)
  | all
  deriving DecidableEq, Repr

/-- The two forms of Read Anchors (R99). -/
inductive ReadAnchorsForm
  | byCell (first count : Nat)
  | byChannel (first count : Nat)
  deriving DecidableEq, Repr

/-- The two forms of Define Channel (R30). -/
inductive DefineChannelForm
  | configuration (offset trim : Int) (maxStep : Nat)
  | remove
  deriving DecidableEq, Repr

/-- Every field of R122 as a Define Zone carries it; `mode` and `ackPolicy` are the raw named values. -/
structure ZoneArgs where
  coil : Nat
  lowTube : Nat
  highTube : Nat
  lowElevation : Nat
  highElevation : Nat
  enabled : BitVec 5
  highLimit : Int
  highHighLimit : Int
  spreadLimit : Nat
  rateLimit : Nat
  rateWindow : Nat
  qualityFloor : Nat
  qualityCount : Nat
  deadband : Nat
  mode : Nat
  repeatInterval : Nat
  ackPolicy : Nat
  deriving DecidableEq, Repr

/-- One pair of a Set Parameters list (R178): the parameter's number and the value given. -/
structure ParameterPair where
  number : Nat
  value : Int
  deriving DecidableEq, Repr

/-- The commands. A command of R171 carries the link it arrived on, its Tag, and its arguments; it
stands for a good frame of that command handed to the request service (R164, R165; log entry 6, DEDUCED, safe). -/
inductive Instr
  /-- POWER_ON_RESET (R184), with the levels of Strap 1 and Strap 0 (true is high) at its end. -/
  | powerOnReset (strap1 strap0 : Bool)
  /-- EXTERNAL_RESET_LINE (R185), with the straps as above. -/
  | externalResetLine (strap1 strap0 : Bool)
  /-- CLOCK_SECOND (R183). -/
  | clockSecond
  /-- SAMPLE_EXPIRY (R21). -/
  | sampleExpiry
  /-- MODULE_REPLY (R24): the bytes of a reply complete within the reply time. -/
  | moduleReply (bytes : List Byte)
  /-- REPLY_TIME_EXPIRY (R23): whether any bytes came that make no complete reply. -/
  | replyTimeExpiry (bytesCame : Bool)
  /-- READING (R53): whether its check and length are right (R48), and its fields (log entry 8, DESIGN CHOICE,
  safe). -/
  | reading (intact : Bool) (sight : Nat) (temperature : Int) (signal : Nat)
  /-- HEAD_FAULT (R49): whether its check and length are right (R48), and its code (log entry 8, DESIGN
  CHOICE, safe). -/
  | headFault (intact : Bool) (code : Nat)
  /-- REPLY_TIMEOUT (R49). -/
  | replyTimeout
  /-- SWEEP_EXPIRY (R57). -/
  | sweepExpiry
  /-- PASS_EXPIRY (R71). -/
  | passExpiry
  /-- TUBE_STEP (R73). -/
  | tubeStep
  /-- HAND_OFF_EVALUATION (R125). -/
  | handOffEvaluation
  /-- TUBE_COPY (R144). -/
  | tubeCopy
  /-- FREEZE_COMPLETION (R146). -/
  | freezeCompletion
  /-- SAVE_END (R180): whether the read-back comparison agrees. -/
  | saveEnd (agrees : Bool)
  /-- EXPOSURE_SAVE_EXPIRY (R181). -/
  | exposureSaveExpiry
  /-- LINK_BYTE (R163): the byte, whether it is broken (R161), and whether it came after a gap of
  more than 3 ms (log entry 9, DESIGN CHOICE, safe). -/
  | linkByte (link : Link) (byte : Byte) (broken late : Bool)
  /-- RESPONSE_SENT (R166). -/
  | responseSent (link : Link)
  /-- UNKNOWN_COMMAND_CODE (R167): a good frame whose Command code is not in the catalogue. -/
  | unknownCommandCode (link : Link) (tag code : Byte) (payload : List Byte)
  | readStatus (link : Link) (tag : Byte)
  | readCoilTable (link : Link) (tag : Byte)
  | readCells (link : Link) (tag : Byte) (source coil start count : Nat)
  | readHotList (link : Link) (tag : Byte) (source : Nat)
  | readZones (link : Link) (tag : Byte) (source first count : Nat)
  | readMapStatus (link : Link) (tag : Byte)
  | readChannel (link : Link) (tag : Byte) (channel : Nat)
  | readChannelStatistics (link : Link) (tag : Byte) (first count : Nat) (clear : Bool)
  | readModuleStatus (link : Link) (tag : Byte)
  | readSweepStatus (link : Link) (tag : Byte)
  | readSights (link : Link) (tag : Byte) (first count : Nat)
  | readScanRecords (link : Link) (tag : Byte) (first count : Nat)
  | readAnchors (link : Link) (tag : Byte) (form : ReadAnchorsForm)
  | readBias (link : Link) (tag : Byte) (clear : Bool)
  | readExposure (link : Link) (tag : Byte) (first count : Nat)
  | zoneExposureTotal (link : Link) (tag : Byte) (zone resume : Nat)
  | readEvents (link : Link) (tag : Byte) (count : Nat)
  | readParameters (link : Link) (tag : Byte)
  | requestSweep (link : Link) (tag : Byte) (kind : SweepKindArg)
  | freezeMap (link : Link) (tag : Byte)
  | clearFlags (link : Link) (tag : Byte) (flags : BitVec 16)
  | setMask (link : Link) (tag : Byte) (mask : BitVec 16) (autoClear : Bool)
  | acknowledge (link : Link) (tag : Byte) (zone occurrence : Nat)
  | startMapping (link : Link) (tag : Byte)
  | stopMapping (link : Link) (tag : Byte)
  | cancelSweep (link : Link) (tag : Byte)
  | clearPeaks (link : Link) (tag : Byte) (form : ClearPeaksForm)
  | clearExposure (link : Link) (tag : Byte) (coil : Nat)
  | freezeAndClearPeaks (link : Link) (tag : Byte)
  | setClock (link : Link) (tag : Byte) (value : Nat)
  | saveConfiguration (link : Link) (tag : Byte)
  | saveExposure (link : Link) (tag : Byte)
  | checkStore (link : Link) (tag : Byte)
  | defineCoil (link : Link) (tag : Byte) (expected coil tubes elevations design step : Nat)
  | deleteCoil (link : Link) (tag : Byte) (expected coil : Nat)
  | defineChannel (link : Link) (tag : Byte) (expected channel : Nat) (form : DefineChannelForm)
  | retireChannel (link : Link) (tag : Byte) (expected channel : Nat)
  | returnToService (link : Link) (tag : Byte) (expected channel : Nat)
  | assignAnchor (link : Link) (tag : Byte) (expected cell channel : Nat)
  | releaseAnchor (link : Link) (tag : Byte) (expected cell : Nat)
  | assignAlternate (link : Link) (tag : Byte) (expected cell channel : Nat) (offset : Int)
  | releaseAlternate (link : Link) (tag : Byte) (expected cell : Nat)
  | defineSights (link : Link) (tag : Byte) (expected sightCount first : Nat) (entries : List (Option Nat))
  | setInterleave (link : Link) (tag : Byte) (expected factor : Nat)
  | defineZone (link : Link) (tag : Byte) (expected zone : Nat) (args : ZoneArgs)
  | deleteZone (link : Link) (tag : Byte) (expected zone : Nat)
  | setParameters (link : Link) (tag : Byte) (expected : Nat) (pairs : List ParameterPair)
  | setEditRights (link : Link) (tag : Byte) (expected : Nat) (markerA markerB : Bool)
  | setAutoStart (link : Link) (tag : Byte) (expected : Nat) (on : Bool)
  deriving DecidableEq, Repr

end Sys2Proof
end

