-- ==== Sys2Proof/Machine/Data.lean ====
section
/-! DEFINITION. The named values and records of the ten blocks, as the chapters give them. -/

namespace Sys2Proof.Machine

/-- One value for each link. -/
structure PerLink (α : Type) where
  a : α
  b : α
  e : α
  deriving DecidableEq, Repr

/-! ## Results and events -/

/-- The result codes (00_scope.md, Results; R172). -/
inductive Result
  | ok | clamped | merged | incomplete
  | busy | scannerBusy | staleGeneration | staleOccurrence | nothingToAck | notPermitted
  | wrongState | badArgument | capacity | notConfigured | alternateInUse | alternateBad
  | primaryInService | storeFault | unknownCommand
  deriving DecidableEq, Repr

/-- The event kinds (section 9.2). -/
inductive EventKind
  | channelSuspect | channelFailed | channelRecovered | channelReturned | channelRetired | moduleMissing
  | alternateAssigned | alternateReleased | biasRejected
  | sweepDone | sweepFaulted
  | passAbandoned | passOverrun | mapEstablished | mappingStopped | exposureCleared
  | alarmRaised | alarmCleared | alarmAcked | alarmRepeat
  | freezeTaken
  | configChanged
  | storeSaved | storeFault
  | clockSet | startUp
  deriving DecidableEq, Repr

/-- What a block asks EVT to append: kind, subject and detail (R153). -/
structure Note where
  kind : EventKind
  subject : Nat
  detail : Int
  deriving DecidableEq, Repr

/-- One entry of the event history (R152). -/
structure Event where
  sequence : Nat
  stamp : Nat
  clockSet : Bool
  kind : EventKind
  subject : Nat
  detail : Int
  deriving DecidableEq, Repr

/-- The ten flags of a link as a set (R157): bit k is the k-th group of section 9.2, bit 9 History Loss. -/
abbrev FlagSet := BitVec 10

/-- The five conditions of a zone as a set, by the codes of R137: High 1, HighHigh 2, Spread 4, Rate 8, Quality 16. -/
abbrev CondSet := BitVec 5

/-- A set of coil numbers (R72, R84). -/
abbrev CoilSet := BitVec 8

/-! ## Geometry and cells (chapter 1) -/

/-- A Defined entry of the coil table, less its derived base (R1). -/
structure CoilDef where
  tubes : Nat
  elevations : Nat
  design : Nat
  step : Nat
  deriving DecidableEq, Repr

/-- T and E of a coil: what numbers its cells (R2, R10). -/
structure Dims where
  tubes : Nat
  elevations : Nat
  deriving DecidableEq, Repr

/-- The geometry that numbers cells: T and E of each Defined coil. -/
abbrev Geometry := Table Dims

/-- A coil, a tube of it and an elevation (R3). -/
structure Place where
  coil : Nat
  tube : Nat
  elevation : Nat
  deriving DecidableEq, Repr

/-- The quality classes (R14). -/
inductive Quality
  | measured | substituted | scanned | interpolated | extended | neighbour | held | stale | empty
  deriving DecidableEq, Repr

/-- The cell record (R13). -/
structure CellRecord where
  value : Option Int
  quality : Quality
  source : Option Nat
  passStamp : Nat
  heldAge : Nat
  deriving DecidableEq, Repr

/-- The blank state of a cell record (R7). -/
def CellRecord.blank : CellRecord :=
  { value := none, quality := .empty, source := none, passStamp := 0, heldAge := 0 }

/-- A present peak record (R17). -/
structure Peak where
  value : Int
  stamp : Nat
  pass : Nat
  deriving DecidableEq, Repr

/-- A present scan record (R18). -/
structure ScanRecord where
  sight : Nat
  temperature : Int
  signal : Nat
  stamp : Nat
  deriving DecidableEq, Repr

/-- The alternate part of an anchor configuration (R18). -/
structure Alternate where
  channel : Nat
  offset : Int
  deriving DecidableEq, Repr

/-! ## Acquisition (chapter 2) -/

/-- How a slot's most recent poll ended (R20). -/
inductive PollOutcome
  | none | good | goodAfterReread | fault | badFrame | noReply
  deriving DecidableEq, Repr

/-- The status record of a module slot (R20). -/
structure SlotStatus where
  missing : Bool
  fault : Bool
  lastOutcome : PollOutcome
  deriving DecidableEq, Repr

/-- Missing clear, Fault clear, Last Outcome None (R20). -/
def SlotStatus.reset : SlotStatus := { missing := false, fault := false, lastOutcome := .none }

/-- The Poll request outstanding (R23): the slot it names, and whether it is the re-read (R24). -/
structure Poll where
  slot : Nat
  reread : Bool
  deriving DecidableEq, Repr

/-- A Module Reply's fields before its CRC (R23); input k's open-circuit flag is bit k. -/
structure ModuleReply where
  slot : Nat
  readings : List Int
  opens : BitVec 8
  fault : Bool
  deriving DecidableEq, Repr

/-- The channel states (R29). -/
inductive ChannelState
  | unused | acquiring | healthy | suspect | failed | retired
  deriving DecidableEq, Repr

/-- The failure causes (R29). -/
inductive FailureCause
  | noData | unconfirmed | openCircuit
  deriving DecidableEq, Repr

/-- The last good value with its stamp and age (R29). -/
structure LastGood where
  value : Int
  stamp : Nat
  age : Nat
  deriving DecidableEq, Repr

/-- The candidate with its tally and the suspect age (R29). -/
structure Candidate where
  value : Int
  tally : Nat
  suspectAge : Nat
  deriving DecidableEq, Repr

/-- What Define Channel sets (R29, R30). -/
structure ChannelConfig where
  offset : Int
  trim : Int
  maxStep : Nat
  deriving DecidableEq, Repr

/-- The five statistics counters (R40). -/
structure ChannelStats where
  rejected : Nat
  recovered : Nat
  lost : Nat
  opens : Nat
  clamped : Nat
  deriving DecidableEq, Repr

/-- Every counter 0. -/
def ChannelStats.zero : ChannelStats := { rejected := 0, recovered := 0, lost := 0, opens := 0, clamped := 0 }

/-- The channel record (R29). -/
structure Channel where
  state : ChannelState
  cause : Option FailureCause
  lastGood : Option LastGood
  candidate : Option Candidate
  lostRun : Nat
  config : Option ChannelConfig
  stats : ChannelStats
  deriving DecidableEq, Repr

/-- An Unused channel that has counted nothing (R29). -/
def Channel.unused : Channel :=
  { state := .unused, cause := none, lastGood := none, candidate := none, lostRun := 0, config := none
    stats := .zero }

/-- The judgement of one sample (R27); `valid` carries the corrected value and whether it was clamped. -/
inductive Judgement
  | lost | openCircuit | rangeRejected
  | valid (c : Int) (clamped : Bool)
  deriving DecidableEq, Repr

/-! ## Scanner (chapters 3 and 5) -/

/-- The kind of a sweep (R51). -/
inductive SweepKind
  | full
  | coil (k : Nat)
  deriving DecidableEq, Repr

/-- The outcome of a sweep (R54). -/
inductive SweepOutcome
  | complete | part | faulted | cancelled
  deriving DecidableEq, Repr

/-- The record of the sweep in progress (R51), with the Reply Timeout its attempt in flight was sent under
(R60) (log entry 23, DEDUCED, safe). -/
structure Sweep where
  kind : SweepKind
  nextStep : Nat
  attempt : Nat
  taken : Nat
  discarded : Nat
  missed : Nat
  missedRun : Nat
  lastFault : Option Nat
  timeout : Nat
  deriving DecidableEq, Repr

/-- The Last Sweep record (R54). -/
structure LastSweep where
  kind : SweepKind
  outcome : SweepOutcome
  taken : Nat
  discarded : Nat
  missed : Nat
  lastFault : Option Nat
  endStamp : Nat
  clockSet : Bool
  deriving DecidableEq, Repr

/-- The record of a coil's last comparison (R100). -/
structure Comparison where
  cell : Nat
  sight : Nat
  difference : Int
  accepted : Bool
  bias : Int
  uptime : Nat
  deriving DecidableEq, Repr

/-- What SCN holds for each coil (R100). -/
structure CoilBias where
  bias : Int
  disagreements : Nat
  last : Option Comparison
  deriving DecidableEq, Repr

/-- Bias 0, count 0, no Last Comparison (R100). -/
def CoilBias.reset : CoilBias := { bias := 0, disagreements := 0, last := none }

/-! ## Mapping pass (chapter 4) -/

/-- The map states (R65). -/
inductive MapState
  | stopped | establishing | mapping
  deriving DecidableEq, Repr

/-- The phase of a pass (R72). -/
inductive Phase
  | walking | handingOff
  deriving DecidableEq, Repr

/-- The record of the pass in progress (R72). -/
structure Pass where
  number : Nat
  generation : Nat
  phase : Phase
  coil : Nat
  tube : Nat
  tubesWritten : Nat
  wideGaps : Nat
  anchored : CoilSet
  deriving DecidableEq, Repr

/-- Why a pass was abandoned (R84). -/
inductive AbandonReason
  | stop | generation
  deriving DecidableEq, Repr

/-- The Last Pass record (R84); `reason` is absent for Completed, `unanchored` for Abandoned. -/
structure LastPass where
  number : Nat
  completed : Bool
  reason : Option AbandonReason
  generation : Nat
  tubesWritten : Nat
  wideGaps : Nat
  unanchored : Option CoilSet
  endStamp : Nat
  clockSet : Bool
  endUptime : Nat
  deriving DecidableEq, Repr

/-- What a read of exposure took of one cell with the cell's tube (R118, R120). -/
structure TakenCell where
  cell : Nat
  accumulator : Nat
  multiplier : Nat
  deriving DecidableEq, Repr

/-- What a read of exposure is answered with beside its cells: for Read Exposure whether its count was changed and the
design metal temperature and exposure step of each coil (R118), for Zone Exposure Total the zone, the first index, the
next index and the generation (R120). -/
inductive ExposureReply
  | cells (clamped : Bool) (coils : List (Nat × Nat))
  | total (zone first : Nat) (next : Option Nat) (generation : Nat)
  deriving DecidableEq, Repr

/-- A Read Exposure or a Zone Exposure Total in progress: the cells of the tubes it has still to take, tube by tube,
and what it took (R16, R113, R118, R120). -/
structure ExposureRead where
  reply : ExposureReply
  left : List (List Nat)
  taken : List TakenCell
  deriving DecidableEq, Repr

/-- A direct source found at step 1 of a tube evaluation (R75). -/
structure Direct where
  value : Int
  quality : Quality
  source : Nat
  deriving DecidableEq, Repr

/-! ## Zones, alarms, hot list (chapter 7) -/

/-- The mode of a zone (R122). -/
inductive ZoneMode
  | latching | repeating
  deriving DecidableEq, Repr

/-- The Ack Policy of a zone (R122). -/
inductive AckPolicy
  | either | both
  deriving DecidableEq, Repr

/-- A Defined zone (R122). -/
structure Zone where
  coil : Nat
  lowTube : Nat
  highTube : Nat
  lowElevation : Nat
  highElevation : Nat
  enabled : CondSet
  highLimit : Int
  highHighLimit : Int
  spreadLimit : Nat
  rateLimit : Nat
  rateWindow : Nat
  qualityFloor : Nat
  qualityCount : Nat
  deadband : Nat
  mode : ZoneMode
  repeatInterval : Nat
  ackPolicy : AckPolicy
  deriving DecidableEq, Repr

/-- The states of an alarm record, of both modes (R131); `active` is Repeating mode's. -/
inductive AlarmState
  | normal | activeUnacked | activeAcked | clearedUnacked | active
  deriving DecidableEq, Repr

/-- The links that have acknowledged the current occurrence, a subset of A and B (R131). -/
structure AckSet where
  a : Bool
  b : Bool
  deriving DecidableEq, Repr

/-- The alarm record (R131). -/
structure AlarmRecord where
  state : AlarmState
  conditions : CondSet
  raised : CondSet
  acknowledged : CondSet
  occurrence : Nat
  acks : AckSet
  repeatCount : Nat
  deriving DecidableEq, Repr

/-- The record at reset: Normal with occurrence number 0 (R131). -/
def AlarmRecord.reset : AlarmRecord :=
  { state := .normal, conditions := 0, raised := 0, acknowledged := 0, occurrence := 0
    acks := { a := false, b := false }, repeatCount := 0 }

/-- One entry of a rate window (R128). -/
structure RateEntry where
  pass : Nat
  maximum : Option Int
  endUptime : Nat
  deriving DecidableEq, Repr

/-- A zone's last evaluation figures (R125). -/
structure ZoneFigures where
  maximum : Option Int
  minimum : Option Int
  trusted : Nat
  lowQuality : Nat
  rate : Option Int
  pass : Nat
  deriving DecidableEq, Repr

/-- An entry of the hot tube list (R139). -/
structure HotEntry where
  cell : Nat
  value : Int
  quality : Quality
  passStamp : Nat
  deriving DecidableEq, Repr

/-! ## Frozen map (chapter 8) -/

/-- The parts of a filled frozen map other than its cell copies, with its freeze number (R142). -/
structure FrozenHeader where
  hotList : List HotEntry
  hotPass : Nat
  watchThreshold : Int
  zonesDefined : List Nat
  records : Table AlarmRecord
  figures : Table ZoneFigures
  mapState : MapState
  lastCompleted : Nat
  limitOutput : Bool
  heaterClock : Nat
  clockSet : Bool
  uptime : Nat
  generation : Nat
  freezeNumber : Nat
  deriving DecidableEq, Repr

/-- The freeze in flight (R143, R144): its kind, the link whose request started it, and the next
tube to copy, absent when the walk is over. -/
structure Freeze where
  clearing : Bool
  starter : Link
  next : Option (Nat × Nat)
  deriving DecidableEq, Repr

/-! ## Link controller (chapter 10) -/

/-- A link's receiver; Receiving holds the bytes of the frame in progress, from Length onward (R163). -/
inductive Receiver
  | hunting
  | receiving (buffer : List Byte)
  | discarding
  deriving DecidableEq, Repr

/-- A request in service that its owner holds (R165). -/
structure InService where
  tag : Byte
  command : Byte
  deriving DecidableEq, Repr

/-- A response in a link's queue (R166, R175). -/
structure Response where
  tag : Byte
  command : Byte
  result : Result
  payload : List Byte
  deriving DecidableEq, Repr

/-- What the owning block does with a request it is handed: it answers within the action, or holds it (R165). -/
inductive Answer
  | now (result : Result) (payload : List Byte)
  | held
  deriving DecidableEq, Repr

/-- The most recent refusal answered on a link (R169). -/
structure Refused where
  command : Byte
  result : Result
  deriving DecidableEq, Repr

/-! ## Configuration and store (chapter 11) -/

/-- The sixteen parameters (R178), with 0 for a Sweep Period or Exposure Save Period that is off. -/
structure Parameters where
  samplePeriod : Nat
  confirmCount : Nat
  failTime : Nat
  sweepPeriod : Nat
  replyTimeout : Nat
  scanRetries : Nat
  minSignal : Nat
  scanAgeLimit : Nat
  passPeriod : Nat
  maxGap : Nat
  holdLimit : Nat
  establishPasses : Nat
  disagreeLimit : Nat
  biasShift : Nat
  watchThreshold : Int
  exposureSavePeriod : Nat
  deriving DecidableEq, Repr

/-- The defaults of R178. -/
def Parameters.default : Parameters :=
  { samplePeriod := 10, confirmCount := 3, failTime := 10, sweepPeriod := 0, replyTimeout := 500
    scanRetries := 1, minSignal := 40, scanAgeLimit := 900, passPeriod := 5, maxGap := 3, holdLimit := 12
    establishPasses := 2, disagreeLimit := 300, biasShift := 3, watchThreshold := 9000
    exposureSavePeriod := 4 }

/-- A channel as the configuration image holds it: its configuration and its Retired mark (R179). -/
structure ChannelImage where
  config : ChannelConfig
  retired : Bool
  deriving DecidableEq, Repr

/-- The contents of the configuration image (R179). -/
structure ConfigImage where
  coils : Table CoilDef
  channels : Table ChannelImage
  primaries : Table Nat
  alternates : Table Alternate
  sightCount : Nat
  sights : Table Nat
  interleave : Nat
  zones : Table Zone
  parameters : Parameters
  rightsA : Bool
  rightsB : Bool
  autoStart : Bool
  masks : PerLink FlagSet
  autoClears : PerLink Bool
  generation : Nat
  deriving DecidableEq, Repr

/-- What an Unconfigured controller holds in place of a valid configuration image (R184, step 3). -/
def ConfigImage.unconfigured : ConfigImage :=
  { coils := [], channels := [], primaries := [], alternates := [], sightCount := 0, sights := []
    interleave := 1, zones := [], parameters := .default, rightsA := false, rightsB := false
    autoStart := false, masks := { a := 0, b := 0, e := 0 }
    autoClears := { a := false, b := false, e := false }, generation := 0 }

/-- The contents of the exposure image (R179): the accumulators that are not 0, and their geometry. -/
structure ExposureImage where
  exposure : Table Nat
  geometry : Geometry
  deriving DecidableEq, Repr

/-- An image as it stands in the nonvolatile store, with its 32-bit checksum (R179). -/
structure Stored (α : Type) where
  contents : α
  checksum : BitVec 32
  deriving DecidableEq, Repr

/-- The image a save captured (R180, step 1). -/
inductive Capture
  | config (image : ConfigImage)
  | exposure (image : ExposureImage)
  deriving DecidableEq, Repr

/-- The save in flight (R179, R180): its capture, and the link that requested it, absent for a scheduled save
(R181). -/
structure Save where
  capture : Capture
  requester : Option Link
  deriving DecidableEq, Repr

end Sys2Proof.Machine
end

