-- ==== Sys2Proof/Config.lean ====
section
/-! DEFINITION. What the manual leaves to the implementation: the bytes of the two nonvolatile images, and where a
Read Map Status shows a pass that is handed off. -/

namespace Sys2Proof.Config

/-- The bytes of a configuration image other than its checksum. R179 gives its contents and no layout:
uninterpreted (log entry 10, DESIGN CHOICE, safe). -/
opaque configImageBytes : Machine.ConfigImage → List Byte

/-- The bytes of an exposure image other than its checksum, likewise (log entry 10, DESIGN CHOICE, safe). -/
opaque exposureImageBytes : Machine.ExposureImage → List Byte

/-- Whether a Read Map Status shows a pass in phase Handing off as in progress, and not in the Last Pass record: R88
shows it once and leaves open in which (log entry 34, DESIGN CHOICE, unsafe). -/
opaque handingOffInProgress : Bool

end Sys2Proof.Config
end

