-- ==== Sys2Proof/Machine/State.lean ====
section
/-! DEFINITION. The state of the Jehnar 3406, block by block, its reasons to stop, and its state after reset. -/

namespace Sys2Proof.Machine

/-- The value of link `l`. -/
def PerLink.get {α : Type} (p : PerLink α) : Link → α
  | .a => p.a
  | .b => p.b
  | .e => p.e

/-- `p` with the value of link `l` replaced. -/
def PerLink.set {α : Type} (p : PerLink α) (l : Link) (x : α) : PerLink α :=
  match l with
  | .a => { p with a := x }
  | .b => { p with b := x }
  | .e => { p with e := x }

/-- `f` of each link's value. -/
def PerLink.map {α β : Type} (f : α → β) (p : PerLink α) : PerLink β :=
  { a := f p.a, b := f p.b, e := f p.e }

/-- TMB (R183): the clocks, and each down-counter's period as last loaded, absent while it is stopped
(log entry 4, DESIGN CHOICE, safe). The sample counter counts 100 ms steps, the exposure save counter hours, the others seconds. -/
structure Timebase where
  uptime : Nat
  heaterClock : Nat
  clockSet : Bool
  sampleCounter : Nat
  passCounter : Option Nat
  sweepCounter : Option Nat
  exposureSaveCounter : Option Nat
  deriving DecidableEq, Repr

/-- ACQ: the channel table (R29; an unlisted channel is Unused and has counted nothing), the slot
records (R20), and the poll outstanding, which is present exactly while a poll round runs (R21). -/
structure Acquisition where
  channels : Table Channel
  slots : Table SlotStatus
  poll : Option Poll
  deriving DecidableEq, Repr

/-- SCN (R44, R45, R51, R54, R56, R57, R61, R100). A sight that the table does not list names no
cell; a cell that `scans` does not list has no scan record. A View request is outstanding exactly
while a sweep is in progress. -/
structure Scanner where
  sightCount : Nat
  sights : Table Nat
  interleave : Nat
  sweep : Option Sweep
  pendingSlot : Option SweepKind
  lastSweep : Option LastSweep
  sweepSkips : Nat
  scans : Table ScanRecord
  biases : Table CoilBias
  deriving DecidableEq, Repr

/-- MAP (R13, R17, R65, R66). `stopPending` holds the link whose Stop Mapping set it, `reads` the read of exposure
that each link's request in service has in progress (R118, R120). An unlisted cell is blank, has no peak and an
accumulator of 0. -/
structure MapEngine where
  mapState : MapState
  stopPending : Option Link
  passNumber : Nat
  pass : Option Pass
  establishCount : Nat
  lastCompleted : Nat
  lastPass : Option LastPass
  overruns : Nat
  cells : Table CellRecord
  peaks : Table Peak
  exposure : Table Nat
  retainedGeometry : Geometry
  reads : PerLink (Option ExposureRead)
  deriving DecidableEq, Repr

/-- ALM (R122, R125, R128, R131, R138, R140). -/
structure AlarmUnit where
  zones : Table Zone
  records : Table AlarmRecord
  windows : Table (List RateEntry)
  figures : Table ZoneFigures
  hotList : List HotEntry
  hotPass : Nat
  limitOutput : Bool
  deriving DecidableEq, Repr

/-- FRZ (R142). The frozen map is filled when `header` is present; a freeze in flight overwrites the
cell copies in place. -/
structure FreezeUnit where
  cellCopies : Table CellRecord
  peakCopies : Table Peak
  header : Option FrozenHeader
  freezeNumber : Nat
  freeze : Option Freeze
  deriving DecidableEq, Repr

/-- What EVT holds for one link (R155, R157, R159, R160). -/
structure EventLink where
  cursor : Nat
  flags : FlagSet
  mask : FlagSet
  autoClear : Bool
  attention : Bool
  deriving DecidableEq, Repr

/-- EVT (R151): the history, oldest first, the sequence counter, and each link's part. -/
structure EventUnit where
  history : List Event
  nextSequence : Nat
  links : PerLink EventLink
  deriving DecidableEq, Repr

/-- What LNK holds for one link (R163, R165, R166, R164, R169). -/
structure LinkState where
  receiver : Receiver
  inService : Option InService
  queue : List Response
  frameErrors : Nat
  lastRefusal : Option Refused
  deriving DecidableEq, Repr

/-- LNK: the straps as last sampled (R161) and each link's part. -/
structure LinkController where
  strap1 : Bool
  strap0 : Bool
  links : PerLink LinkState
  deriving DecidableEq, Repr

/-- CFG (R1, R89, R168, R177, R178). -/
structure ConfigUnit where
  coils : Table CoilDef
  primaries : Table Nat
  alternates : Table Alternate
  parameters : Parameters
  rightsA : Bool
  rightsB : Bool
  generation : Nat
  unsavedEdits : Bool
  autoStart : Bool
  deriving DecidableEq, Repr

/-- NVS (R179 to R181, R184). A stored image is absent where no image can be read back (log entry 11, DEDUCED,
unsafe). -/
structure Store where
  configStore : Option (Stored ConfigImage)
  exposureStore : Option (Stored ExposureImage)
  configValid : Bool
  exposureValid : Bool
  save : Option Save
  waiting : Bool
  configLost : Bool
  exposureLost : Bool
  deriving DecidableEq, Repr

/-- The controller, one field per block, and the queue of the commands that wait, first in, first out
(the model's own field, log entry 3, DESIGN CHOICE, safe). -/
structure State where
  tmb : Timebase
  acq : Acquisition
  scn : Scanner
  map : MapEngine
  alm : AlarmUnit
  frz : FreezeUnit
  evt : EventUnit
  lnk : LinkController
  cfg : ConfigUnit
  nvs : Store
  pending : List Instr
  deriving DecidableEq, Repr

/-- Nothing stops this block: the spec gives every command an effect in every state, so there is no
fault to raise. -/
inductive Fault : Type
  deriving DecidableEq, Repr

/-- Reasons for which a command has no meaning in the model. -/
inductive Refusal
  /-- Raised by `exec` alone, for a command without a meaning yet (none is left); safe: the model stops. -/
  | notModelled (mnemonic : String)
  deriving DecidableEq, Repr

/-! ## Reset values of the blocks -/

/-- A link of EVT before any event: cursor 0, no flag, the mask and Auto Clear given, line deasserted (R155,
R157, R160). -/
def EventLink.reset (mask : FlagSet) (autoClear : Bool) : EventLink :=
  { cursor := 0, flags := 0, mask := mask, autoClear := autoClear, attention := false }

/-- A link of LNK at reset (R163, R165, R166, R164, R169). -/
def LinkState.reset : LinkState :=
  { receiver := .hunting, inService := none, queue := [], frameErrors := 0, lastRefusal := none }

/-! ## Updates of one block -/

/-- `s` with the state of the Timebase replaced. -/
def State.withTmb (s : State) (x : Timebase) : State := { s with tmb := x }

/-- `s` with the state of the Acquisition Unit replaced. -/
def State.withAcq (s : State) (x : Acquisition) : State := { s with acq := x }

/-- `s` with the state of the Scanner Interface replaced. -/
def State.withScn (s : State) (x : Scanner) : State := { s with scn := x }

/-- `s` with the state of the Map Engine replaced. -/
def State.withMap (s : State) (x : MapEngine) : State := { s with map := x }

/-- `s` with the state of the Alarm Unit replaced. -/
def State.withAlm (s : State) (x : AlarmUnit) : State := { s with alm := x }

/-- `s` with the state of the Freeze Unit replaced. -/
def State.withFrz (s : State) (x : FreezeUnit) : State := { s with frz := x }

/-- `s` with the state of the Event Unit replaced. -/
def State.withEvt (s : State) (x : EventUnit) : State := { s with evt := x }

/-- `s` with the state of the Link Controller replaced. -/
def State.withLnk (s : State) (x : LinkController) : State := { s with lnk := x }

/-- `s` with the state of the Configuration Unit replaced. -/
def State.withCfg (s : State) (x : ConfigUnit) : State := { s with cfg := x }

/-- `s` with the state of the Store Controller replaced. -/
def State.withNvs (s : State) (x : Store) : State := { s with nvs := x }

/-- `s` with its queue of waiting commands replaced. -/
def State.withPending (s : State) (q : List Instr) : State := { s with pending := q }

/-! ## The state after reset -/

/-- The controller right after power-on reset with a store that holds no readable image (log entry 1, DESIGN
CHOICE, unsafe)
and both rate straps low (log entry 2, DESIGN CHOICE, unsafe): Unconfigured and Stopped, with StartUp and one StoreFault for
each image in the history, and so the System and Store flags set on every link (R151, R184). -/
def State.reset : State :=
  let link : EventLink := { cursor := 0, flags := 0x180, mask := 0, autoClear := false, attention := true }
  { tmb :=
      { uptime := 0, heaterClock := 0, clockSet := false, sampleCounter := 10, passCounter := none
        sweepCounter := none, exposureSaveCounter := some 4 }
    acq := { channels := [], slots := [], poll := none }
    scn :=
      { sightCount := 0, sights := [], interleave := 1, sweep := none, pendingSlot := none
        lastSweep := none, sweepSkips := 0, scans := [], biases := [] }
    map :=
      { mapState := .stopped, stopPending := none, passNumber := 0, pass := none, establishCount := 0
        lastCompleted := 0, lastPass := none, overruns := 0, cells := [], peaks := [], exposure := []
        retainedGeometry := [], reads := { a := none, b := none, e := none } }
    alm :=
      { zones := [], records := [], windows := [], figures := [], hotList := [], hotPass := 0
        limitOutput := false }
    frz := { cellCopies := [], peakCopies := [], header := none, freezeNumber := 0, freeze := none }
    evt :=
      { history :=
          [ { sequence := 0, stamp := 0, clockSet := false, kind := .startUp, subject := 0, detail := 1 },
            { sequence := 1, stamp := 0, clockSet := false, kind := .storeFault, subject := 0, detail := 2 },
            { sequence := 2, stamp := 0, clockSet := false, kind := .storeFault, subject := 1, detail := 2 } ]
        nextSequence := 3
        links := { a := link, b := link, e := link } }
    lnk :=
      { strap1 := false, strap0 := false
        links := { a := .reset, b := .reset, e := .reset } }
    cfg :=
      { coils := [], primaries := [], alternates := [], parameters := .default, rightsA := false
        rightsB := false, generation := 0, unsavedEdits := false, autoStart := false }
    nvs :=
      { configStore := none, exposureStore := none, configValid := false, exposureValid := false
        save := none, waiting := false, configLost := true, exposureLost := true }
    pending := [] }

end Sys2Proof.Machine
end

