-- ==== Sys2Proof/Machine/Flags.lean ====
section
/-! DEFINITION. Event groups, flags, attention lines, and the append to the event history (chapter 9). -/

namespace Sys2Proof.Machine

/-- The kind code of R176: the high four bits name the group, the low four the kind within it. -/
def EventKind.code : EventKind → Nat
  | .channelSuspect => 0x10 | .channelFailed => 0x11 | .channelRecovered => 0x12
  | .channelReturned => 0x13 | .channelRetired => 0x14 | .moduleMissing => 0x15
  | .alternateAssigned => 0x20 | .alternateReleased => 0x21 | .biasRejected => 0x22
  | .sweepDone => 0x30 | .sweepFaulted => 0x31
  | .passAbandoned => 0x40 | .passOverrun => 0x41 | .mapEstablished => 0x42
  | .mappingStopped => 0x43 | .exposureCleared => 0x44
  | .alarmRaised => 0x50 | .alarmCleared => 0x51 | .alarmAcked => 0x52 | .alarmRepeat => 0x53
  | .freezeTaken => 0x60
  | .configChanged => 0x70
  | .storeSaved => 0x80 | .storeFault => 0x81
  | .clockSet => 0x90 | .startUp => 0x91

/-- The flag of each group of section 9.2, in the order of its table (R157). -/
def EventKind.flag : EventKind → FlagSet
  | .channelSuspect | .channelFailed | .channelRecovered | .channelReturned | .channelRetired
  | .moduleMissing => 0x001
  | .alternateAssigned | .alternateReleased | .biasRejected => 0x002
  | .sweepDone | .sweepFaulted => 0x004
  | .passAbandoned | .passOverrun | .mapEstablished | .mappingStopped | .exposureCleared => 0x008
  | .alarmRaised | .alarmCleared | .alarmAcked | .alarmRepeat => 0x010
  | .freezeTaken => 0x020
  | .configChanged => 0x040
  | .storeSaved | .storeFault => 0x080
  | .clockSet | .startUp => 0x100

/-- The History Loss flag (R157). -/
def historyLoss : FlagSet := 0x200

/-- The number of a link where an event's subject is a link (R152). -/
def linkNumber : Link → Nat
  | .a => 0
  | .b => 1
  | .e => 2

/-- The attention line that the link's flags and mask call for: asserted while a set flag is unmasked (R160). -/
def EventLink.called (x : EventLink) : Bool := decide (x.flags &&& ~~~x.mask ≠ 0)

/-- The link's line judged again (R160). -/
def EventLink.judge (x : EventLink) : EventLink := { x with attention := x.called }

/-- The flags of `f` set, and the line judged again. -/
def EventLink.setFlags (f : FlagSet) (x : EventLink) : EventLink := ({ x with flags := x.flags ||| f }).judge

/-- The flags of `f` cleared, and the line judged again. -/
def EventLink.clearFlags (f : FlagSet) (x : EventLink) : EventLink := ({ x with flags := x.flags &&& ~~~f }).judge

/-- The most entries the history holds (R151). -/
def historyPlaces : Nat := 128

/-- The history with `entry` at its newest end, the oldest removed first when it is full (R153, steps 1 and 2). -/
def pushEvent (history : List Event) (entry : Event) : List Event :=
  (if history.length < historyPlaces then history else history.drop 1) ++ [entry]

/-- The event history as an append leaves it: unchanged when it is exhausted, which it is once the
sequence counter stands at its maximum (R153). -/
def EventUnit.record (x : EventUnit) (stamp : Nat) (clockSet : Bool) (n : Note) : EventUnit :=
  if x.nextSequence < max32 then
    { x with
      history :=
        pushEvent x.history
          { sequence := x.nextSequence, stamp := stamp, clockSet := clockSet, kind := n.kind
            subject := n.subject, detail := n.detail }
      nextSequence := x.nextSequence + 1 }
  else x

/-- One append (R153): the entry, the group's flag on all three links, and each line judged again. -/
def appendEvent (s : State) (n : Note) : State :=
  let x := s.evt.record s.tmb.heaterClock s.tmb.clockSet n
  s.withEvt { x with links := x.links.map (EventLink.setFlags n.kind.flag) }

/-- Several appends, in order (R153). -/
def appendEvents (s : State) (ns : List Note) : State := ns.foldl appendEvent s

/-- The oldest held number (R151); the sequence counter when nothing is held (log entry 29, DESIGN CHOICE, safe). -/
def EventUnit.oldest (x : EventUnit) : Nat :=
  match x.history with
  | [] => x.nextSequence
  | entry :: _ => entry.sequence

/-- EVT with link `l`'s part changed by `f`. -/
def EventUnit.onLink (x : EventUnit) (l : Link) (f : EventLink → EventLink) : EventUnit :=
  { x with links := x.links.set l (f (x.links.get l)) }

end Sys2Proof.Machine
end

