-- ==== Sys2Proof/Machine/Encode.lean ====
section
/-! DEFINITION. The byte forms of R172, R174 and R176: numbers, named values, sets, fields that may be
absent, and the cell, hot list and event entries (log entry 12, DEDUCED, unsafe). -/

namespace Sys2Proof.Machine

/-- Byte `k` of `n`, counting from the least significant. -/
def byteOf (n k : Nat) : Byte := BitVec.ofNat 8 (n / 256 ^ k)

/-- An unsigned number in 1, 2, 4 or 8 bytes, most significant first (R174). -/
def enc8 (n : Nat) : List Byte := [byteOf n 0]
def enc16 (n : Nat) : List Byte := [byteOf n 1, byteOf n 0]
def enc32 (n : Nat) : List Byte := [byteOf n 3, byteOf n 2, byteOf n 1, byteOf n 0]
def enc64 (n : Nat) : List Byte := enc32 (n / 4294967296) ++ enc32 (n % 4294967296)

/-- A signed number in two's complement of 1, 2 or 4 bytes (R174). -/
def encInt8 (z : Int) : List Byte := enc8 (z % 256).toNat
def encInt16 (z : Int) : List Byte := enc16 (z % 65536).toNat
def encInt32 (z : Int) : List Byte := enc32 (z % 4294967296).toNat

/-- Set, on and yes are 1, and clear, off and no are 0 (R174). -/
def encBool (b : Bool) : List Byte := if b then [1] else [0]

/-- A field that may be absent: preceded by 1 when present, 0 alone when absent (R174). -/
def encOption {α : Type} (f : α → List Byte) : Option α → List Byte
  | none => [0]
  | some x => 1 :: f x

/-- The result codes of R172. -/
def Result.code : Result → Nat
  | .ok => 0x00 | .clamped => 0x01 | .merged => 0x02 | .incomplete => 0x03
  | .busy => 0x10 | .scannerBusy => 0x11 | .staleGeneration => 0x12 | .staleOccurrence => 0x13
  | .nothingToAck => 0x14 | .notPermitted => 0x15 | .wrongState => 0x16 | .badArgument => 0x17
  | .capacity => 0x18 | .notConfigured => 0x19 | .alternateInUse => 0x1A | .alternateBad => 0x1B
  | .primaryInService => 0x1C | .storeFault => 0x1D | .unknownCommand => 0x1E

/-- Every result but OK, CLAMPED, MERGED and INCOMPLETE is a refusal (R169). -/
def Result.isRefusal : Result → Bool
  | .ok | .clamped | .merged | .incomplete => false
  | _ => true

/-- The rank of a quality class; Empty has none (R14). -/
def Quality.rank : Quality → Option Nat
  | .measured => some 7 | .substituted => some 6 | .scanned => some 5 | .interpolated => some 4
  | .extended => some 3 | .neighbour => some 2 | .held => some 1 | .stale => some 0 | .empty => none

/-- A test of "rank at or above" `bound`, which Empty fails (R14). -/
def Quality.atLeast (q : Quality) (bound : Nat) : Bool :=
  match q.rank with
  | none => false
  | some r => decide (bound ≤ r)

/-- The quality code of R176: the rank, and 15 for Empty. -/
def Quality.code (q : Quality) : Nat := q.rank.getD 15

/-- The positions of named values in the lists that their rules give (R174). -/
def MapState.position : MapState → Nat
  | .stopped => 0
  | .establishing => 1
  | .mapping => 2
def ChannelState.position : ChannelState → Nat
  | .unused => 0 | .acquiring => 1 | .healthy => 2 | .suspect => 3 | .failed => 4 | .retired => 5
def FailureCause.position : FailureCause → Nat
  | .noData => 0
  | .unconfirmed => 1
  | .openCircuit => 2
def PollOutcome.position : PollOutcome → Nat
  | .none => 0 | .good => 1 | .goodAfterReread => 2 | .fault => 3 | .badFrame => 4 | .noReply => 5
def SweepOutcome.position : SweepOutcome → Nat
  | .complete => 0 | .part => 1 | .faulted => 2 | .cancelled => 3
def Phase.position : Phase → Nat
  | .walking => 0
  | .handingOff => 1
def AbandonReason.position : AbandonReason → Nat
  | .stop => 0
  | .generation => 1
def ZoneMode.position : ZoneMode → Nat
  | .latching => 0
  | .repeating => 1
def AckPolicy.position : AckPolicy → Nat
  | .either => 0
  | .both => 1
/-- Latching: Normal, ActiveUnacked, ActiveAcked, ClearedUnacked. Repeating: Normal, Active (R131). Each mode's list is
counted on its own, so Active is 1 (log entry 35, DESIGN CHOICE, unsafe). -/
def AlarmState.position : AlarmState → Nat
  | .normal => 0 | .activeUnacked => 1 | .activeAcked => 2 | .clearedUnacked => 3 | .active => 1

/-- A sweep kind: Full, or Coil k followed by k (R51, R174). -/
def SweepKind.encode : SweepKind → List Byte
  | .full => enc8 0
  | .coil k => enc8 1 ++ enc8 k

/-- The pending slot: empty, Full, or Coil k followed by k (R56, R174). -/
def encPendingSlot : Option SweepKind → List Byte
  | none => enc8 0
  | some .full => enc8 1
  | some (.coil k) => enc8 2 ++ enc8 k

/-- An ack set: bit 0 for A, bit 1 for B (R131, R174). -/
def AckSet.encode (x : AckSet) : List Byte := enc8 ((if x.a then 1 else 0) + (if x.b then 2 else 0))

/-- The source or held age field of a cell entry (R176). -/
def CellRecord.sourceOrAge (c : CellRecord) : Nat :=
  match c.quality with
  | .measured | .substituted | .scanned => c.source.getD 0
  | .held | .stale => c.heldAge
  | _ => 0

/-- The cell word of a cell entry (R176). -/
def cellWord (n : Nat) (c : CellRecord) (p : Option Peak) : Nat :=
  n + c.quality.code * 2048 + (if p.isSome then 32768 else 0)

/-- The short form of a cell entry, 12 bytes (R176). -/
def encCellShort (n : Nat) (c : CellRecord) (p : Option Peak) : List Byte :=
  enc16 (cellWord n c p) ++ encInt16 (c.value.getD 0) ++ enc16 c.sourceOrAge ++ enc32 c.passStamp
    ++ encInt16 ((p.map Peak.value).getD 0)

/-- The long form of a cell entry, 20 bytes (R176). -/
def encCellLong (n : Nat) (c : CellRecord) (p : Option Peak) : List Byte :=
  encCellShort n c p ++ enc32 ((p.map Peak.pass).getD 0) ++ enc32 ((p.map Peak.stamp).getD 0)

/-- A hot list entry, 9 bytes (R176). -/
def HotEntry.encode (h : HotEntry) : List Byte :=
  enc16 h.cell ++ encInt16 h.value ++ enc8 h.quality.code ++ enc32 h.passStamp

/-- An event entry, 16 bytes (R176). -/
def Event.encode (x : Event) : List Byte :=
  enc32 x.sequence ++ enc32 x.stamp ++ enc8 x.kind.code ++ encBool x.clockSet ++ enc16 x.subject
    ++ encInt32 x.detail

end Sys2Proof.Machine
end

