-- ==== Sys2Proof/Machine/Geometry.lean ====
section
/-! DEFINITION. Cell numbers: bases, places, tubes, and the cells a change of geometry keeps (chapter 1). -/

namespace Sys2Proof.Machine

/-- T and E of a coil. -/
def CoilDef.dims (c : CoilDef) : Dims := { tubes := c.tubes, elevations := c.elevations }

/-- The geometry of a coil table (R10). -/
def geometryOf (coils : Table CoilDef) : Geometry := Table.mapEntries (fun _ c => c.dims) coils

/-- T × E. -/
def Dims.cells (d : Dims) : Nat := d.tubes * d.elevations

/-- The sum of T × E over the coils that a geometry lists. -/
def cellTotal : Geometry → Nat
  | [] => 0
  | (_, d) :: g => d.cells + cellTotal g

/-- The base cell number of coil `k` (R2). -/
def baseCell (g : Geometry) (k : Nat) : Nat := cellTotal (Table.restrict (fun j => decide (j < k)) g)

/-- The place of the `n`-th cell of a geometry's coils, in order (R3). -/
def placeOf : Geometry → Nat → Option Place
  | [], _ => none
  | (k, d) :: g, n =>
    if n < d.cells then some { coil := k, tube := n / d.elevations, elevation := n % d.elevations }
    else placeOf g (n - d.cells)

/-- The cell number of tube `t` at elevation `e` of coil `k`, whose elevation count is `elevations` (R3). -/
def cellNumber (g : Geometry) (k elevations t e : Nat) : Nat := baseCell g k + t * elevations + e

/-- The geometry in force. -/
def State.geometry (s : State) : Geometry := geometryOf s.cfg.coils

/-- The entry of coil `k`, absent when Undefined (R1). -/
def State.coil (s : State) (k : Nat) : Option CoilDef := Table.find s.cfg.coils k

/-- The cell total (R2). -/
def State.cellTotal (s : State) : Nat := Machine.cellTotal s.geometry

/-- A cell number is in use when it is below the cell total (R3). -/
def State.inUse (s : State) (n : Nat) : Bool := decide (n < s.cellTotal)

/-- The refusal of a request that names cell `n` by number, if any (R3). -/
def State.cellRefusal (s : State) (n : Nat) : Option Result :=
  if 2047 < n then some .badArgument else if s.inUse n then none else some .notConfigured

/-- The coil of cell `n`. -/
def State.coilOfCell (s : State) (n : Nat) : Option Nat := (placeOf s.geometry n).map Place.coil

/-- The cells of tube `t` of coil `k` with `elevations` elevations, bottom first (R16). -/
def tubeCells (g : Geometry) (k elevations t : Nat) : List Nat :=
  List.range' (cellNumber g k elevations t 0) elevations

/-- A cell number is kept when it is in use in both geometries and names the same place in both (R7). -/
def cellKept (old new : Geometry) (n : Nat) : Bool :=
  match placeOf old n, placeOf new n with
  | some p, some q => decide (p = q)
  | _, _ => false

/-- Every cell in use before or after is kept (R9, the frozen map). -/
def allKept (old new : Geometry) : Bool :=
  (List.range (max (Machine.cellTotal old) (Machine.cellTotal new))).all (cellKept old new)

/-- The first Defined coil above `k`, in ascending coil number. -/
def coilAfter (g : Geometry) (k : Nat) : Option Nat := ((g.find? fun entry => decide (k < entry.1)).map (·.1))

/-- The lowest-numbered Defined coil. -/
def firstCoil (g : Geometry) : Option Nat := (g.head?).map (·.1)

/-- The tube after tube `t` of coil `k` in the walk of R73 and R144: the next of the coil, or tube 0
of the next Defined coil, absent after the last. -/
def tubeAfter (g : Geometry) (k t : Nat) : Option (Nat × Nat) :=
  match Table.find g k with
  | some d => if t + 1 < d.tubes then some (k, t + 1) else (coilAfter g k).map fun j => (j, 0)
  | none => (coilAfter g k).map fun j => (j, 0)

/-- The Defined coils as a set. -/
def coilSet (g : Geometry) : CoilSet := g.foldl (fun acc entry => acc ||| BitVec.ofNat 8 (2 ^ entry.1)) 0

/-- The set of coil `k` alone. -/
def oneCoil (k : Nat) : CoilSet := BitVec.ofNat 8 (2 ^ k)

end Sys2Proof.Machine
end

