-- ==== Sys2Proof/Machine/Operands.lean ====
section
/-! DEFINITION. What every command does with its operands: clamping, ranges cut to a table's end, and the
roundings the chapters name. -/

namespace Sys2Proof.Machine

/-- `n` taken to the nearer end of `lo` to `hi` when it lies outside (R177). -/
def clampNat (lo hi n : Nat) : Nat := if n < lo then lo else if hi < n then hi else n

/-- `n` taken to the nearer end of `lo` to `hi` when it lies outside (R177). -/
def clampInt (lo hi n : Int) : Int := if n < lo then lo else if hi < n then hi else n

/-- The lowest and highest value of the map, in tenths (R13). -/
def mapLow : Int := -500
def mapHigh : Int := 12500

/-- A value taken into the map range at the nearer end (R28, R76). -/
def clampMap (v : Int) : Int := clampInt mapLow mapHigh v

/-- `n ÷ d` rounded half away from zero (R28, R77, R79), for `d` above 0. -/
def roundHalfAway (n : Int) (d : Nat) : Int :=
  if n < 0 then -(((2 * n.natAbs + d) / (2 * d) : Nat) : Int) else (((2 * n.natAbs + d) / (2 * d) : Nat) : Int)

/-- `n ÷ d` truncated toward zero (R103, R129). -/
def truncated (n d : Int) : Int := Int.tdiv n d

/-- The count of a ranged read: at most `limit`, and cut so that the range ends at `last`
(R41, R64, R99, R118, R141). -/
def rangeCount (limit first last count : Nat) : Nat := min (min count limit) (last + 1 - first)

/-- CLAMPED when the count was changed, and OK otherwise. -/
def clampedIf (changed : Bool) : Result := if changed then .clamped else .ok

/-- The numbers `first`, `first + 1`, … of a range of `count`. -/
def rangeOf (first count : Nat) : List Nat := List.range' first count

end Sys2Proof.Machine
end

