-- ==== Sys2Proof/Machine/Ops.lean ====
section
/-! DEFINITION. What every request shares: the response queue, the request service, the checks of the
Link Controller (chapter 10), and the acceptance of a configuration edit (R177). -/

namespace Sys2Proof.Machine

/-- The Command codes the rules name one by one (R171). -/
def freezeMapCode : Byte := 0x21
def acknowledgeCode : Byte := 0x24
def stopMappingCode : Byte := 0x31
def freezeAndClearPeaksCode : Byte := 0x35
def saveConfigurationCode : Byte := 0x37
def saveExposureCode : Byte := 0x38

/-- What a link holds, with link `l`'s part changed by `f`. -/
def onLink (s : State) (l : Link) (f : LinkState → LinkState) : State :=
  s.withLnk { s.lnk with links := s.lnk.links.set l (f (s.lnk.links.get l)) }

/-- A response placed in the queue (R166); a refusal becomes the link's last refusal (R169). -/
def LinkState.enqueue (r : Response) (x : LinkState) : LinkState :=
  { x with
    queue := x.queue ++ [r]
    lastRefusal := if r.result.isRefusal then some { command := r.command, result := r.result } else x.lastRefusal }

/-- The Frame Error counter raised (R164). -/
def LinkState.countError (x : LinkState) : LinkState := { x with frameErrors := raise max16 x.frameErrors }

/-- The request in service answered: it leaves service and its response is queued (R165). -/
def LinkState.answer (result : Result) (payload : List Byte) (x : LinkState) : LinkState :=
  match x.inService with
  | none => x
  | some q =>
    ({ x with inService := none }).enqueue
      { tag := q.tag, command := q.command, result := result, payload := payload }

/-- The owner answers the request held on link `l`. -/
def answerHeld (s : State) (l : Link) (result : Result) (payload : List Byte) : State :=
  onLink s l (LinkState.answer result payload)

/-- Answers the request held on link `l` when its command is one of `commands`: OK on the link that
started the operation, and MERGED on a link that joined it (R69, R146). -/
def answerJoined (commands : List Byte) (starter : Link) (payload : List Byte) (s : State) (l : Link) : State :=
  match (s.lnk.links.get l).inService with
  | none => s
  | some q =>
    if q.command ∈ commands then answerHeld s l (if l = starter then .ok else .merged) payload else s

/-- Answers every request held for one operation (R69, R146). -/
def answerAllJoined (commands : List Byte) (starter : Link) (payload : List Byte) (s : State) : State :=
  [Link.a, Link.b, Link.e].foldl (answerJoined commands starter payload) s

/-- Link `l` holds edit rights (R168). -/
def State.holdsRights (s : State) : Link → Bool
  | .a => s.cfg.rightsA
  | .b => s.cfg.rightsB
  | .e => true

/-- The Command code is in the catalogue of R171. -/
def commandKnown (code : Byte) : Bool :=
  let n := code.toNat
  decide (0x01 ≤ n ∧ n ≤ 0x12 ∨ 0x20 ≤ n ∧ n ≤ 0x24 ∨ 0x30 ≤ n ∧ n ≤ 0x39 ∨ 0x40 ≤ n ∧ n ≤ 0x4F)

/-- The command needs edit rights whatever its payload: an operating command or an edit (R171). -/
def commandNeedsRights (code : Byte) : Bool :=
  let n := code.toNat
  decide (0x30 ≤ n ∧ n ≤ 0x39 ∨ 0x40 ≤ n ∧ n ≤ 0x4F)

/-- Checks 1 to 3 of R167. -/
def linkRefusal (s : State) (l : Link) (code : Byte) : Option Result :=
  if !commandKnown code then some .unknownCommand
  else if code = acknowledgeCode ∧ l = .e then some .notPermitted
  else if commandNeedsRights code && !s.holdsRights l then some .notPermitted
  else none

/-- What an owning block does with a request. -/
abbrev Owner := State → State × Answer

/-- The responses that may wait when a frame is still taken: one fewer than this (R166). -/
def queueLimit : Nat := 7

/-- The owner's answer taken: queued at once, or the request held in service (R165). -/
def settle (l : Link) (tag code : Byte) (done : State × Answer) : State :=
  match done.2 with
  | .now result payload =>
    onLink done.1 l (LinkState.enqueue { tag := tag, command := code, result := result, payload := payload })
  | .held => onLink done.1 l fun x => { x with inService := some { tag := tag, command := code } }

/-- A good frame handed over on link `l`: dropped behind a full queue (R166), answered BUSY behind a
request in service (R165), refused by a check of R167, or handed to its owning block. `owner` is
absent when the payload does not fit the command (check 4). A refusal here has an empty payload
(log entry 15, DEDUCED, unsafe). -/
def serve (l : Link) (tag code : Byte) (owner : Option Owner) (s : State) : State :=
  let x := s.lnk.links.get l
  let reply (result : Result) : State :=
    onLink s l (LinkState.enqueue { tag := tag, command := code, result := result, payload := [] })
  if queueLimit ≤ x.queue.length then onLink s l LinkState.countError
  else if x.inService.isSome then reply .busy
  else
    match linkRefusal s l code with
    | some result => reply result
    | none =>
      match owner with
      | none => reply .badArgument
      | some f => settle l tag code (f s)

/-- An owner that only reads: it answers with a result and a payload and changes nothing. -/
def reads (f : State → Result × List Byte) : Owner := fun s => (s, .now (f s).1 (f s).2)

/-- A refusal with an empty payload (R172). -/
def refuse (s : State) (r : Result) : State × Answer := (s, .now r [])

/-- An accepted edit (R177): the generation rises, Unsaved Edits is set, and ConfigChanged is appended. -/
def acceptEdit (l : Link) (s : State) : State :=
  let g := (s.cfg.generation + 1) % 65536
  appendEvent (s.withCfg { s.cfg with generation := g, unsavedEdits := true })
    { kind := .configChanged, subject := linkNumber l, detail := g }

/-- A configuration edit (R173, R177): the Expected Generation first, then the edit's own checks; when
it passes, the edit applied, the generation raised, ConfigChanged appended, and then the events of
the edit's own rule. Every reply opens with the generation that stands after it. -/
def edit (l : Link) (expected : Nat) (refusal : State → Option Result) (clamped : State → Bool)
    (apply : State → State) (events : State → List Note) : Owner := fun s =>
  if expected ≠ s.cfg.generation then (s, .now .staleGeneration (enc16 s.cfg.generation))
  else
    match refusal s with
    | some r => (s, .now r (enc16 s.cfg.generation))
    | none =>
      let t := appendEvents (acceptEdit l (apply s)) (events s)
      (t, .now (clampedIf (clamped s)) (enc16 t.cfg.generation))

/-- The first refusal of a list of checks, in order. -/
def firstRefusal : List (Bool × Result) → Option Result
  | [] => none
  | (true, r) :: _ => some r
  | (false, _) :: rest => firstRefusal rest

end Sys2Proof.Machine
end

