-- ==== Sys2Proof/WellFormed.lean ====
section
/-! DEFINITION. Which commands can be sent: each operand within what its field on the wire or on its bus
can hold (R48, R161, R174). -/

namespace Sys2Proof

/-- A number that fits in one, two or four bytes (R174). -/
def fits8 (n : Nat) : Bool := decide (n < 256)
def fits16 (n : Nat) : Bool := decide (n < 65536)
def fits32 (n : Nat) : Bool := decide (n < 4294967296)

/-- A signed number that fits in one, two or four bytes of two's complement (R174). -/
def fitsInt8 (z : Int) : Bool := decide (-128 ≤ z ∧ z < 128)
def fitsInt16 (z : Int) : Bool := decide (-32768 ≤ z ∧ z < 32768)
def fitsInt32 (z : Int) : Bool := decide (-2147483648 ≤ z ∧ z < 2147483648)

/-- A kind of a Request Sweep; 0 and 1 are the kinds that have a name (R55, R174). -/
def SweepKindArg.wf : SweepKindArg → Bool
  | .full => true
  | .coil k => fits8 k
  | .other code => decide (2 ≤ code) && fits8 code

/-- A form of Clear Peaks. -/
def ClearPeaksForm.wf : ClearPeaksForm → Bool
  | .coil k => fits8 k
  | .all => true

/-- A form of Read Anchors: cell numbers take two bytes and channel numbers one. -/
def ReadAnchorsForm.wf : ReadAnchorsForm → Bool
  | .byCell first count => fits16 first && fits8 count
  | .byChannel first count => fits8 first && fits8 count

/-- A form of Define Channel. -/
def DefineChannelForm.wf : DefineChannelForm → Bool
  | .configuration offset trim maxStep => fitsInt16 offset && fitsInt8 trim && fits16 maxStep
  | .remove => true

/-- The fields of a Define Zone. -/
def ZoneArgs.wf (z : ZoneArgs) : Bool :=
  fits8 z.coil && fits8 z.lowTube && fits8 z.highTube && fits8 z.lowElevation && fits8 z.highElevation
    && fitsInt16 z.highLimit && fitsInt16 z.highHighLimit && fits16 z.spreadLimit && fits16 z.rateLimit
    && fits8 z.rateWindow && fits8 z.qualityFloor && fits8 z.qualityCount && fits16 z.deadband
    && fits8 z.mode && fits8 z.repeatInterval && fits8 z.ackPolicy

/-- A pair of a Set Parameters list. -/
def ParameterPair.wf (x : ParameterPair) : Bool := fits8 x.number && fitsInt32 x.value

/-- The most payload bytes of a frame (R175). -/
def payloadPlaces : Nat := 480

/-- A command whose operands can be sent. -/
def Instr.wf : Instr → Bool
  | .reading _ sight temperature signal => decide (sight ≤ 511) && fitsInt16 temperature && fits8 signal
  | .headFault _ code => decide (1 ≤ code) && fits8 code
  | .unknownCommandCode _ _ code payload => !Machine.commandKnown code && decide (payload.length ≤ payloadPlaces)
  | .readCells _ _ source coil start count => fits8 source && fits8 coil && fits16 start && fits8 count
  | .readHotList _ _ source => fits8 source
  | .readZones _ _ source first count => fits8 source && fits8 first && fits8 count
  | .readChannel _ _ channel => fits8 channel
  | .readChannelStatistics _ _ first count _ => fits8 first && fits8 count
  | .readSights _ _ first count | .readScanRecords _ _ first count | .readExposure _ _ first count =>
    fits16 first && fits8 count
  | .readAnchors _ _ form => form.wf
  | .zoneExposureTotal _ _ zone resume => fits8 zone && fits16 resume
  | .readEvents _ _ count => fits8 count
  | .requestSweep _ _ kind => kind.wf
  | .acknowledge _ _ zone occurrence => fits8 zone && fits16 occurrence
  | .clearPeaks _ _ form => form.wf
  | .clearExposure _ _ coil => fits8 coil
  | .setClock _ _ value => fits32 value
  | .defineCoil _ _ expected coil tubes elevations design step =>
    fits16 expected && fits8 coil && fits8 tubes && fits8 elevations && fits16 design && fits16 step
  | .deleteCoil _ _ expected coil => fits16 expected && fits8 coil
  | .defineChannel _ _ expected channel form => fits16 expected && fits8 channel && form.wf
  | .retireChannel _ _ expected channel | .returnToService _ _ expected channel => fits16 expected && fits8 channel
  | .assignAnchor _ _ expected cell channel => fits16 expected && fits16 cell && fits8 channel
  | .releaseAnchor _ _ expected cell | .releaseAlternate _ _ expected cell => fits16 expected && fits16 cell
  | .assignAlternate _ _ expected cell channel offset =>
    fits16 expected && fits16 cell && fits8 channel && fitsInt16 offset
  | .defineSights _ _ expected sightCount first entries =>
    fits16 expected && fits16 sightCount && fits16 first && decide (entries.length ≤ 128)
      && entries.all fun x => x.all fits16
  | .setInterleave _ _ expected factor => fits16 expected && fits16 factor
  | .defineZone _ _ expected zone args => fits16 expected && fits8 zone && args.wf
  | .deleteZone _ _ expected zone => fits16 expected && fits8 zone
  | .setParameters _ _ expected pairs =>
    fits16 expected && decide (1 ≤ pairs.length ∧ pairs.length ≤ 16) && pairs.all ParameterPair.wf
  | .setEditRights _ _ expected _ _ | .setAutoStart _ _ expected _ => fits16 expected
  | .powerOnReset _ _ | .externalResetLine _ _ | .clockSecond | .sampleExpiry | .moduleReply _
  | .replyTimeExpiry _ | .replyTimeout | .sweepExpiry | .passExpiry | .tubeStep | .handOffEvaluation
  | .tubeCopy | .freezeCompletion | .saveEnd _ | .exposureSaveExpiry | .linkByte _ _ _ _ | .responseSent _
  | .readStatus _ _ | .readCoilTable _ _ | .readMapStatus _ _ | .readModuleStatus _ _ | .readSweepStatus _ _
  | .readBias _ _ _ | .readParameters _ _ | .freezeMap _ _ | .clearFlags _ _ _ | .setMask _ _ _ _
  | .startMapping _ _ | .stopMapping _ _ | .cancelSweep _ _ | .freezeAndClearPeaks _ _
  | .saveConfiguration _ _ | .saveExposure _ _ | .checkStore _ _ => true

end Sys2Proof
end

