-- ==== Sys2Proof/Decode.lean ====
section
/-! DEFINITION. The command that a table word spells: no row of spec/opcode_table.json gives bits, so no word
spells one. The payloads of requests are read in Machine/Requests.lean. -/

namespace Sys2Proof

/-- The command whose `nbits` bits are `w`: none, because the table gives no row any bits. -/
def decodeTableWord (_nbits _w : Nat) : Option Instr := none

end Sys2Proof
end

