-- ==== Sys2Proof/Machine/Crc.lean ====
section
/-! DEFINITION. The two check sequences: the 8-bit CRC of a Module Reply and the 16-bit CRC of a frame. -/

namespace Sys2Proof.Machine

/-- One bit through a CRC register of `w` bits with polynomial `poly`: not reflected. -/
def crcShift {w : Nat} (poly reg : BitVec w) : BitVec w :=
  if reg.msb then (reg <<< 1) ^^^ poly else reg <<< 1

/-- Eight shifts of the register. -/
def crcShift8 {w : Nat} (poly reg : BitVec w) : BitVec w :=
  crcShift poly (crcShift poly (crcShift poly (crcShift poly
    (crcShift poly (crcShift poly (crcShift poly (crcShift poly reg)))))))

/-- The CRC-8 of R23: x⁸ + x² + x + 1, initial value 0, most significant bit first, not inverted. -/
def crc8 (bytes : List Byte) : BitVec 8 :=
  bytes.foldl (fun reg byte => crcShift8 0x07#8 (reg ^^^ byte)) 0

/-- The frame check sequence of R162: x¹⁶ + x¹² + x⁵ + 1, initial value 0xFFFF, most significant bit
first, not inverted. -/
def crc16 (bytes : List Byte) : BitVec 16 :=
  bytes.foldl (fun reg byte => crcShift8 0x1021#16 (reg ^^^ (byte.setWidth 16).shiftLeft 8)) 0xFFFF#16

end Sys2Proof.Machine
end

