-- ==== Sys2Proof/Machine/Channels.lean ====
section
/-! DEFINITION. ACQ: the poll exchange, the judgement of a sample, the channel health machine, the channel
edits and the channel reads (chapter 2). -/

namespace Sys2Proof.Machine

/-! ## Records -/

/-- Channels on the bus, slots, inputs of a module (R20). -/
def channelCount : Nat := 96
def slotCount : Nat := 12
def slotInputs : Nat := 8

/-- The record of channel `n`. -/
def State.channel (s : State) (n : Nat) : Channel := Table.get .unused s.acq.channels n

/-- `s` with the record of channel `n` replaced. -/
def State.setChannel (s : State) (n : Nat) (c : Channel) : State :=
  s.withAcq { s.acq with channels := Table.put .unused s.acq.channels n c }

/-- The status record of slot `k`. -/
def State.slot (s : State) (k : Nat) : SlotStatus := Table.get .reset s.acq.slots k

/-- `s` with the status record of slot `k` replaced. -/
def State.setSlot (s : State) (k : Nat) (x : SlotStatus) : State :=
  s.withAcq { s.acq with slots := Table.put .reset s.acq.slots k x }

/-- A slot is enabled while one of its eight channels is not Unused (R20). -/
def slotEnabled (s : State) (k : Nat) : Bool :=
  (List.range slotInputs).any fun i => decide ((s.channel (k * slotInputs + i)).state ≠ .unused)

/-- The value a usable channel serves, absent when it is not usable: Healthy, last good age 2 or less (R43). -/
def Channel.usableValue (c : Channel) : Option Int :=
  match c.state, c.lastGood with
  | .healthy, some g => if g.age ≤ 2 then some g.value else none
  | _, _ => none

/-! ## Judging one input (section 2.3) -/

/-- The gain correction of trim code `g`, in parts per million (R28). -/
def trimPpm (g : Int) : Int := if 0 ≤ g then 250 * g else 125 * g

/-- The corrected value of raw reading `r` before clamping (R28). -/
def correctedRaw (cfg : ChannelConfig) (r : Int) : Int :=
  r + cfg.offset + roundHalfAway (r * trimPpm cfg.trim) 1000000

/-- The judgement of one input of a reply that brings readings (R27, cases 2 to 4). -/
def judgeInput (cfg : ChannelConfig) (raw : Int) (isOpen : Bool) : Judgement :=
  if isOpen then .openCircuit
  else if raw < -2000 ∨ 16000 < raw then .rangeRejected
  else .valid (clampMap (correctedRaw cfg raw)) (decide (clampMap (correctedRaw cfg raw) ≠ correctedRaw cfg raw))

/-- The counters a judgement raises, in every configured state (R27, R28, R40). -/
def ChannelStats.count (x : ChannelStats) : Judgement → ChannelStats
  | .lost => { x with lost := raise max16 x.lost }
  | .openCircuit => { x with opens := raise max16 x.opens }
  | .rangeRejected => { x with rejected := raise max16 x.rejected }
  | .valid _ true => { x with clamped := raise max16 x.clamped }
  | .valid _ false => x

/-! ## The health machine (section 2.4.2) -/

/-- A channel after a sample, and the events of the sample as kind and detail. -/
abbrev Sampled := Channel × List (EventKind × Int)

/-- Two values within Max Step of each other (2.4.2). -/
def closeTo (maxStep : Nat) (v w : Int) : Bool := decide ((v - w).natAbs ≤ maxStep)

/-- The detail code of a failure cause (R39). -/
def FailureCause.detail : FailureCause → Int
  | .noData => 1
  | .unconfirmed => 2
  | .openCircuit => 3

/-- Failed with `cause`; the candidate is discarded, the last good value held (R31, R34, R35). -/
def Channel.failed (cause : FailureCause) (c : Channel) : Sampled :=
  ({ c with state := .failed, cause := some cause, candidate := none }, [(.channelFailed, cause.detail)])

/-- Healthy with last good value `v`, a fresh stamp, age 0 and lost run 0 (R31, R32, R33). -/
def Channel.accept (v : Int) (uptime : Nat) (c : Channel) : Channel :=
  { c with
    state := .healthy, cause := none, lastGood := some { value := v, stamp := uptime, age := 0 }
    candidate := none, lostRun := 0 }

/-- The Rejected counter raised for a step (R32, R33). -/
def Channel.countStep (c : Channel) : Channel :=
  { c with stats := { c.stats with rejected := raise max16 c.stats.rejected } }

/-- The lost run raised by an empty sample (R31, R32, R34, R35). -/
def Channel.loseSample (c : Channel) : Channel := { c with lostRun := raise max8 c.lostRun }

/-- An empty sample in Acquiring or Healthy: Failed NoData when the lost run reaches Fail Time (R31, R32). -/
def Channel.emptySample (failTime : Nat) (c : Channel) : Sampled :=
  let d := c.loseSample
  if failTime ≤ d.lostRun then d.failed .noData else (d, [])

/-- After a change of the tally: the candidate confirmed at the Confirm Count, else Suspect with it (R33). -/
def Channel.weigh (confirmCount uptime : Nat) (k : Candidate) (c : Channel) : Sampled :=
  if confirmCount ≤ k.tally then
    ({ c.accept k.value uptime with stats := { c.stats with recovered := raise max16 c.stats.recovered } },
      [(.channelRecovered, 1)])
  else ({ c with state := .suspect, candidate := some k, lostRun := 0 }, [])

/-- A Valid reading in Healthy (R32). -/
def Channel.healthyReading (p : Parameters) (uptime maxStep : Nat) (v : Int) (c : Channel) : Sampled :=
  match c.lastGood with
  | none => (c.accept v uptime, [])
  | some g =>
    if closeTo maxStep v g.value then (c.accept v uptime, [])
    else
      let d := c.countStep.weigh p.confirmCount uptime { value := v, tally := 1, suspectAge := 0 }
      (d.1, (.channelSuspect, v) :: d.2)

/-- A Valid reading in Suspect, in the order of R33. -/
def Channel.suspectReading (p : Parameters) (uptime maxStep : Nat) (v : Int) (c : Channel) : Sampled :=
  let k := c.candidate.getD { value := v, tally := 0, suspectAge := 0 }
  if c.lastGood.any fun g => closeTo maxStep v g.value then (c.accept v uptime, [(.channelRecovered, 0)])
  else if closeTo maxStep v k.value then
    c.weigh p.confirmCount uptime { k with value := v, tally := raise 15 k.tally }
  else c.countStep.weigh p.confirmCount uptime { k with value := v, tally := 1 }

/-- The suspect age raised for a sample that leaves the channel Suspect; Failed Unconfirmed at Fail Time (R34). -/
def ageSuspect (failTime : Nat) (r : Sampled) : Sampled :=
  match r.1.state, r.1.candidate with
  | .suspect, some k =>
    let age := raise max8 k.suspectAge
    let c := { r.1 with candidate := some { k with suspectAge := age } }
    if failTime ≤ age then ((c.failed .unconfirmed).1, r.2 ++ (c.failed .unconfirmed).2) else (c, r.2)
  | _, _ => r

/-- What one judgement does to a channel whose counters already stand raised (R31 to R35). -/
def Channel.sample (p : Parameters) (uptime maxStep : Nat) (j : Judgement) (c : Channel) : Sampled :=
  match c.state, j with
  | .unused, _ => (c, [])
  | .acquiring, .valid v _ => (c.accept v uptime, [])
  | .acquiring, .openCircuit => c.failed .openCircuit
  | .acquiring, _ => c.emptySample p.failTime
  | .healthy, .valid v _ => c.healthyReading p uptime maxStep v
  | .healthy, .openCircuit => c.failed .openCircuit
  | .healthy, _ => c.emptySample p.failTime
  | .suspect, .valid v _ => ageSuspect p.failTime (c.suspectReading p uptime maxStep v)
  | .suspect, .openCircuit => c.failed .openCircuit
  | .suspect, _ => ageSuspect p.failTime (c.loseSample, [])
  | .failed, .valid _ _ | .retired, .valid _ _ => ({ c with lostRun := 0 }, [])
  | .failed, .openCircuit | .retired, .openCircuit => (c, [])
  | .failed, _ | .retired, _ => (c.loseSample, [])

/-! ## The poll exchange (sections 2.1 and 2.2) -/

/-- Byte `i` of a reply. -/
def byteAt (bytes : List Byte) (i : Nat) : Byte := bytes.getD i 0

/-- A two-byte field, most significant byte first. -/
def wordAt (bytes : List Byte) (i : Nat) : BitVec 16 := byteAt bytes i ++ byteAt bytes (i + 1)

/-- The length of a Module Reply: slot, eight readings, open flags, fault flag, CRC (R23; the byte
layout is log entry 7, DESIGN CHOICE, unsafe). -/
def moduleReplyLength : Nat := 20

/-- The fields of a reply of the right length whose CRC-8 passes (R23, R24; log entry 7, DESIGN CHOICE, unsafe). -/
def parseModuleReply (bytes : List Byte) : Option ModuleReply :=
  if bytes.length = moduleReplyLength ∧ crc8 (bytes.take 19) = byteAt bytes 19 then
    some
      { slot := (byteAt bytes 0).toNat
        readings := (List.range slotInputs).map fun i => (wordAt bytes (1 + 2 * i)).toInt
        opens := byteAt bytes 17
        fault := decide (byteAt bytes 18 ≠ 0) }
  else none

/-- A well-formed reply for the slot polled, absent for a bad frame (R24). -/
def wellFormedReply (slot : Nat) (bytes : List Byte) : Option ModuleReply :=
  match parseModuleReply bytes with
  | some r => if r.slot = slot then some r else none
  | none => none

/-- The first enabled slot from `first` upward (R21). -/
def nextEnabledSlot (s : State) (first : Nat) : Option Nat :=
  (List.range' first (slotCount - first)).find? (slotEnabled s)

/-- The round goes on with the first enabled slot from `first` upward, or ends (R21). -/
def pollFrom (s : State) (first : Nat) : State :=
  s.withAcq { s.acq with poll := (nextEnabledSlot s first).map fun k => { slot := k, reread := false } }

/-- One input's record updated from the poll, and its events appended (R26, R27). `reply` is absent
when the poll brought no readings. -/
def updateInput (slot : Nat) (reply : Option ModuleReply) (s : State) (input : Nat) : State :=
  let n := slot * slotInputs + input
  let c := s.channel n
  match c.config with
  | none => s
  | some cfg =>
    let j :=
      match reply with
      | none => .lost
      | some r => judgeInput cfg (r.readings.getD input 0) (r.opens.getLsbD input)
    let counted := { c with stats := c.stats.count j }
    let r := counted.sample s.cfg.parameters s.tmb.uptime cfg.maxStep j
    appendEvents (s.setChannel n r.1) (r.2.map fun x => { kind := x.1, subject := n, detail := x.2 })

/-- The slot's status at the end of a poll (R25): `drew` when the last request drew a reply, `reply`
the well-formed reply received, if any. ModuleMissing is appended when Missing becomes set. -/
def updateSlot (slot : Nat) (outcome : PollOutcome) (drew : Bool) (reply : Option ModuleReply) (s : State) : State :=
  let old := s.slot slot
  let t := s.setSlot slot
    { missing := !drew
      fault := match reply with
        | some r => r.fault
        | none => old.fault
      lastOutcome := outcome }
  if !drew && !old.missing then
    appendEvent t { kind := .moduleMissing, subject := slot * slotInputs, detail := slot }
  else t

/-- The end of a poll (R24 to R26): the slot, then its eight channels, then the next slot of the round. -/
def endPoll (slot : Nat) (outcome : PollOutcome) (drew : Bool) (reply : Option ModuleReply) (s : State) : State :=
  let readings := if outcome = .good ∨ outcome = .goodAfterReread then reply else none
  let t := (List.range slotInputs).foldl (updateInput slot readings) (updateSlot slot outcome drew reply s)
  pollFrom t (slot + 1)

/-- The outcome of a well-formed reply (R24). -/
def replyOutcome (reread : Bool) (r : ModuleReply) : PollOutcome :=
  if r.fault then .fault else if reread then .goodAfterReread else .good

/-- A bad frame: the re-read is sent, or the poll ends BadFrame (R24). -/
def badFrame (p : Poll) (s : State) : State :=
  if p.reread then endPoll p.slot .badFrame true none s
  else s.withAcq { s.acq with poll := some { p with reread := true } }

/-- A reply received within the reply time (R24); with no Poll request outstanding it is discarded (R23). -/
def receiveReply (bytes : List Byte) (s : State) : State :=
  match s.acq.poll with
  | none => s
  | some p =>
    match wellFormedReply p.slot bytes with
    | some r => endPoll p.slot (replyOutcome p.reread r) true (some r) s
    | none => badFrame p s

/-- The reply time runs out (R23, R24): an incomplete reply is a bad frame, silence ends the poll NoReply. -/
def replyTimeEnds (bytesCame : Bool) (s : State) : State :=
  match s.acq.poll with
  | none => s
  | some p => if bytesCame then badFrame p s else endPoll p.slot .noReply false none s

/-- The last good age raised by one, stopping at 255 (R21). -/
def Channel.grow (c : Channel) : Channel :=
  { c with lastGood := c.lastGood.map fun g => { g with age := raise max8 g.age } }

/-- A sample expiry (R21, R22). -/
def sampleExpires (s : State) : State :=
  let t := (s.withTmb { s.tmb with sampleCounter := s.cfg.parameters.samplePeriod }).withAcq
    { s.acq with channels := Table.mapEntries (fun _ c => c.grow) s.acq.channels }
  if t.acq.poll.isSome then t else pollFrom t 0

/-! ## Channel edits (R30, R37, R38) -/

/-- The configuration of a Define Channel with each field clamped (R30). -/
def clampChannelConfig (offset trim : Int) (maxStep : Nat) : ChannelConfig :=
  { offset := clampInt (-500) 500 offset, trim := clampInt (-31) 31 trim, maxStep := clampNat 1 500 maxStep }

/-- The channel is the primary of some cell. -/
def isPrimary (s : State) (channel : Nat) : Bool := s.cfg.primaries.any fun x => decide (x.2 = channel)

/-- The channel is the alternate of some cell. -/
def isAlternate (s : State) (channel : Nat) : Bool := s.cfg.alternates.any fun x => decide (x.2.channel = channel)

/-- The checks of R30 after the Expected Generation. -/
def defineChannelRefusal (channel : Nat) (form : DefineChannelForm) (s : State) : Option Result :=
  firstRefusal
    [ (decide (channelCount ≤ channel), .badArgument),
      (decide (form = .remove ∧ (s.channel channel).state = .unused), .notConfigured),
      (decide (form = .remove) && (isPrimary s channel || isAlternate s channel), .badArgument) ]

/-- A channel given a new configuration (R30). -/
def Channel.configure (cfg : ChannelConfig) (c : Channel) : Channel :=
  match c.state with
  | .failed | .retired => { c with config := some cfg }
  | _ =>
    { c with
      state := .acquiring, cause := none, lastGood := none, candidate := none, lostRun := 0, config := some cfg }

/-- A taken Define Channel (R30). A slot that becomes enabled has its record reset (R20, log entry 20,
DEDUCED, unsafe). -/
def applyDefineChannel (channel : Nat) (form : DefineChannelForm) (s : State) : State :=
  match form with
  | .configuration offset trim maxStep =>
    let k := channel / slotInputs
    let t := if slotEnabled s k then s else s.setSlot k .reset
    t.setChannel channel ((s.channel channel).configure (clampChannelConfig offset trim maxStep))
  | .remove => s.setChannel channel { Channel.unused with stats := (s.channel channel).stats }

/-- A field of the configuration was clamped (R30). -/
def defineChannelClamped (form : DefineChannelForm) : Bool :=
  match form with
  | .configuration offset trim maxStep =>
    decide (clampChannelConfig offset trim maxStep ≠ { offset := offset, trim := trim, maxStep := maxStep })
  | .remove => false

/-- Define Channel (R30). -/
def ownDefineChannel (l : Link) (expected channel : Nat) (form : DefineChannelForm) : Owner :=
  edit l expected (defineChannelRefusal channel form) (fun _ => defineChannelClamped form)
    (applyDefineChannel channel form) fun _ => []

/-- Retire Channel (R37). -/
def ownRetireChannel (l : Link) (expected channel : Nat) : Owner :=
  edit l expected
    (fun s =>
      firstRefusal
        [ (decide (channelCount ≤ channel), .badArgument),
          (decide ((s.channel channel).state = .unused), .notConfigured) ])
    (fun _ => false)
    (fun s => s.setChannel channel { s.channel channel with state := .retired, cause := none, candidate := none })
    fun s =>
      if (s.channel channel).state = .retired then []
      else [{ kind := .channelRetired, subject := channel, detail := 0 }]

/-- Return to Service (R38). -/
def ownReturnToService (l : Link) (expected channel : Nat) : Owner :=
  edit l expected
    (fun s =>
      let state := (s.channel channel).state
      firstRefusal
        [ (decide (channelCount ≤ channel), .badArgument),
          (decide (state = .unused), .notConfigured),
          (decide (state = .acquiring ∨ state = .healthy ∨ state = .suspect), .badArgument) ])
    (fun _ => false)
    (fun s =>
      s.setChannel channel
        { s.channel channel with
          state := .acquiring, cause := none, lastGood := none, candidate := none, lostRun := 0 })
    fun s =>
      [{ kind := .channelReturned, subject := channel
         detail := if (s.channel channel).state = .retired then 1 else 0 }]

/-! ## Channel reads (R41, R42) -/

/-- A channel configuration's bytes (R42, R174). -/
def ChannelConfig.encode (x : ChannelConfig) : List Byte := encInt16 x.offset ++ encInt8 x.trim ++ enc16 x.maxStep

/-- The five counters (R40, R41). -/
def ChannelStats.encode (x : ChannelStats) : List Byte :=
  enc16 x.rejected ++ enc16 x.recovered ++ enc16 x.lost ++ enc16 x.opens ++ enc16 x.clamped

/-- A channel's record without its statistics; an Unused channel shows its state alone (R42). The last good value with
its stamp and age is one item with one presence byte, candidate, tally and suspect age one each (log entry 12, DEDUCED,
unsafe). -/
def Channel.encode (c : Channel) : List Byte :=
  if c.state = .unused then enc8 c.state.position
  else
    enc8 c.state.position
      ++ encOption (fun x : FailureCause => enc8 x.position) c.cause
      ++ encOption (fun g : LastGood => encInt16 g.value ++ enc32 g.stamp ++ enc8 g.age) c.lastGood
      ++ encOption (fun k : Candidate => encInt16 k.value) c.candidate
      ++ encOption (fun k : Candidate => enc8 k.tally) c.candidate
      ++ encOption (fun k : Candidate => enc8 k.suspectAge) c.candidate
      ++ encOption enc8 (some c.lostRun)
      ++ encOption ChannelConfig.encode c.config

/-- Read Channel (R42). -/
def ownReadChannel (channel : Nat) : Owner :=
  reads fun s => if channelCount ≤ channel then (.badArgument, []) else (.ok, (s.channel channel).encode)

/-- Read Module Status (R42): each slot's record with its enabled state. -/
def ownReadModuleStatus : Owner :=
  reads fun s =>
    (.ok,
      (List.range slotCount).flatMap fun k =>
        encBool (s.slot k).missing ++ encBool (s.slot k).fault ++ enc8 (s.slot k).lastOutcome.position
          ++ encBool (slotEnabled s k))

/-- The counters of the channels from `first` on zeroed (R41). -/
def clearStatistics (first count : Nat) (s : State) : State :=
  (rangeOf first count).foldl (fun t n => t.setChannel n { t.channel n with stats := .zero }) s

/-- Read Channel Statistics (R41); the order of its refusals is log entry 21, DESIGN CHOICE, unsafe. -/
def ownReadChannelStatistics (l : Link) (first count : Nat) (clear : Bool) : Owner := fun s =>
  if channelCount ≤ first ∨ count = 0 then refuse s .badArgument
  else if clear && !s.holdsRights l then refuse s .notPermitted
  else
    let n := rangeCount 32 first (channelCount - 1) count
    let payload := (rangeOf first n).flatMap fun k =>
      enc8 (s.channel k).state.position ++ (s.channel k).stats.encode
    (if clear then clearStatistics first n s else s, .now (clampedIf (decide (n ≠ count))) payload)

end Sys2Proof.Machine
end

