-- ==== Sys2Proof/Machine/Sweeps.lean ====
section
/-! DEFINITION. SCN: the sight table, the scanner exchange, sweeps, scan records and the coil scan bias
(chapters 3 and 5). -/

namespace Sys2Proof.Machine

/-! ## Sights and steps -/

/-- The sight of step `n`: (n × i) mod P (R45). -/
def stepSight (x : Scanner) (n : Nat) : Nat := (n * x.interleave) % x.sightCount

/-- An interleave factor valid for a Sight Count (R45). -/
def interleaveValid (sightCount factor : Nat) : Bool :=
  decide (1 ≤ factor ∧ factor ≤ max 1 (sightCount - 1) ∧ Nat.gcd factor sightCount = 1)

/-- The cell a sight names, absent when it names none (R44). -/
def sightCell (s : State) (sight : Nat) : Option Nat := Table.find s.scn.sights sight

/-- A step of a sweep of this kind is viewed: every step of a Full sweep, and the steps of a Coil k
sweep whose sight names a cell of coil k (R52). -/
def stepViewed (s : State) (kind : SweepKind) (n : Nat) : Bool :=
  match kind with
  | .full => true
  | .coil k =>
    match sightCell s (stepSight s.scn n) with
    | some cell => decide (s.coilOfCell cell = some k)
    | none => false

/-- The first viewed step from `n` on, absent when the walk is over (R52). -/
def nextViewed (s : State) (kind : SweepKind) (n : Nat) : Option Nat :=
  (List.range' n (s.scn.sightCount - n)).find? (stepViewed s kind)

/-! ## The end and the start of a sweep -/

/-- The event's subject for a sweep: k for a Coil k sweep, 255 for a Full sweep (R62). -/
def SweepKind.subject : SweepKind → Nat
  | .full => 255
  | .coil k => k

/-- The event of a sweep end (R54, R62). -/
def sweepNote (x : Sweep) (outcome : SweepOutcome) : Note :=
  match outcome with
  | .complete => { kind := .sweepDone, subject := x.kind.subject, detail := 0 }
  | .part => { kind := .sweepDone, subject := x.kind.subject, detail := 1 }
  | .cancelled => { kind := .sweepDone, subject := x.kind.subject, detail := 2 }
  | .faulted =>
    { kind := .sweepFaulted, subject := x.kind.subject
      detail := match x.lastFault with
        | some code => code
        | none => -1 }

/-- The sweep closed: the Last Sweep record, the event, and SCN out of Sweeping (R54). -/
def closeSweep (x : Sweep) (outcome : SweepOutcome) (s : State) : State :=
  appendEvent
    (s.withScn
      { s.scn with
        sweep := none
        lastSweep := some
          { kind := x.kind, outcome := outcome, taken := x.taken, discarded := x.discarded
            missed := x.missed, lastFault := x.lastFault, endStamp := s.tmb.heaterClock
            clockSet := s.tmb.clockSet } })
    (sweepNote x outcome)

/-- A sweep before its first step (R51). -/
def Sweep.fresh (kind : SweepKind) : Sweep :=
  { kind := kind, nextStep := 0, attempt := 1, taken := 0, discarded := 0, missed := 0, missedRun := 0
    lastFault := none, timeout := 0 }

/-- The View request of step `n`'s first attempt sent, under the Reply Timeout in force (R49, R60). -/
def viewStep (x : Sweep) (n : Nat) (s : State) : State :=
  s.withScn
    { s.scn with sweep := some { x with nextStep := n, attempt := 1, timeout := s.cfg.parameters.replyTimeout } }

/-- The outcome of a sweep whose walk is over (R52). -/
def walkOutcome (x : Sweep) : SweepOutcome := if x.missed = 0 then .complete else .part

/-- A sweep started: its first viewed step, or Complete at once when it views none (R51, R52, R56). -/
def startSweep (kind : SweepKind) (s : State) : State :=
  match nextViewed s kind 0 with
  | some n => viewStep (.fresh kind) n s
  | none => closeSweep (.fresh kind) .complete s

/-- A sweep end with an outcome other than Cancelled: closed, then the pending request started (R54, R56). -/
def endSweep (x : Sweep) (outcome : SweepOutcome) (s : State) : State :=
  let t := closeSweep x outcome s
  match t.scn.pendingSlot with
  | some kind => startSweep kind (t.withScn { t.scn with pendingSlot := none })
  | none => t

/-- The sweep moved to its next viewed step, or ended (R49, R52). -/
def advanceSweep (x : Sweep) (s : State) : State :=
  match nextViewed s x.kind (x.nextStep + 1) with
  | some n => viewStep x n s
  | none => endSweep x (walkOutcome x) s

/-- A sweep in progress cancelled, and the pending slot emptied (R59, R69). In Idle nothing changes. -/
def cancelSweepNow (s : State) : State :=
  match s.scn.sweep with
  | none => s
  | some x =>
    let t := closeSweep x .cancelled s
    t.withScn { t.scn with pendingSlot := none }

/-! ## Attempts -/

/-- The Missed run that ends a sweep Faulted (R50). -/
def faultedRun : Nat := 4

/-- A failed attempt: the next attempt sent, or the step Missed (R49, R50). -/
def attemptFails (x : Sweep) (s : State) : State :=
  if x.attempt ≤ s.cfg.parameters.scanRetries then
    s.withScn
      { s.scn with sweep := some { x with attempt := x.attempt + 1, timeout := s.cfg.parameters.replyTimeout } }
  else
    let y := { x with missed := x.missed + 1, missedRun := x.missedRun + 1 }
    if faultedRun ≤ y.missedRun then endSweep y .faulted s else advanceSweep y s

/-- A Head Fault arrives (R48, R49); with no View request outstanding it is discarded. -/
def headFaultArrives (intact : Bool) (code : Nat) (s : State) : State :=
  match s.scn.sweep with
  | none => s
  | some x => if intact then attemptFails { x with lastFault := some code } s else s

/-- The Reply Timeout of the attempt in flight runs out (R49). With no sweep there is none and nothing happens (log
entry 5, DESIGN CHOICE, safe). -/
def replyTimeoutEnds (s : State) : State :=
  match s.scn.sweep with
  | none => s
  | some x => attemptFails x s

/-! ## Readings and the coil scan bias -/

/-- What SCN holds for coil `k` (R100). -/
def State.coilBias (s : State) (k : Nat) : CoilBias := Table.get .reset s.scn.biases k

/-- `s` with coil `k`'s bias record replaced. -/
def State.setCoilBias (s : State) (k : Nat) (x : CoilBias) : State :=
  s.withScn { s.scn with biases := Table.put .reset s.scn.biases k x }

/-- The bounds of a scan bias (R100). -/
def clampBias (b : Int) : Int := clampInt (-1000) 1000 b

/-- The bias after an accepted comparison with difference `d` (R103). -/
def movedBias (shift : Nat) (b d : Int) : Int := clampBias (b + truncated (d - b) (2 ^ shift))

/-- The primary channel's served value, when the cell has a usable primary (R101). -/
def primaryValue (s : State) (cell : Nat) : Option Int :=
  match Table.find s.cfg.primaries cell with
  | some channel => (s.channel channel).usableValue
  | none => none

/-- A comparison of a usable primary's value `c` with an accepted Reading for `cell` of coil `k` (R102, R103). -/
def compareBias (k cell sight : Nat) (c temperature : Int) (s : State) : State :=
  let x := s.coilBias k
  let d := c - temperature
  if s.cfg.parameters.disagreeLimit < d.natAbs then
    appendEvent
      (s.setCoilBias k
        { bias := x.bias, disagreements := raise max8 x.disagreements
          last := some
            { cell := cell, sight := sight, difference := d, accepted := false, bias := x.bias
              uptime := s.tmb.uptime } })
      { kind := .biasRejected, subject := cell, detail := d }
  else
    let b := movedBias s.cfg.parameters.biasShift x.bias d
    s.setCoilBias k
      { x with
        bias := b
        last := some
          { cell := cell, sight := sight, difference := d, accepted := true, bias := b, uptime := s.tmb.uptime } }

/-- A Reading accepted for `cell`: its scan record replaced, and the comparison made when the cell's
primary is usable, as one action (R53, R101). -/
def acceptReading (cell sight : Nat) (temperature : Int) (signal : Nat) (s : State) : State :=
  let t := s.withScn
    { s.scn with
      scans := Table.insert s.scn.scans cell
        { sight := sight, temperature := temperature, signal := signal, stamp := s.tmb.uptime } }
  match t.coilOfCell cell, primaryValue t cell with
  | some k, some c => compareBias k cell sight c temperature t
  | _, _ => t

/-- A Good Reading, by the step's sight (R53); the Missed run returns to 0 (R50). -/
def goodReading (x : Sweep) (sight : Nat) (temperature : Int) (signal : Nat) (s : State) : State :=
  let y := { x with taken := x.taken + 1, missedRun := 0 }
  match sightCell s sight with
  | none => advanceSweep y s
  | some cell =>
    if signal < s.cfg.parameters.minSignal then advanceSweep { y with discarded := y.discarded + 1 } s
    else advanceSweep y (acceptReading cell sight temperature signal s)

/-- A Reading arrives (R48, R49): Good when it echoes the requested sight, a Mismatch otherwise. -/
def readingArrives (intact : Bool) (sight : Nat) (temperature : Int) (signal : Nat) (s : State) : State :=
  match s.scn.sweep with
  | none => s
  | some x =>
    if !intact then s
    else if sight = stepSight s.scn x.nextStep then goodReading x sight temperature signal s
    else attemptFails x s

/-! ## Sweep requests (R55 to R59) -/

/-- The checks of R55. -/
def sweepRequestRefusal (kind : SweepKind) (s : State) : Option Result :=
  match kind with
  | .full => firstRefusal [(decide (s.scn.sightCount = 0), .notConfigured)]
  | .coil k =>
    firstRefusal
      [ (decide (7 < k), .badArgument), (decide (s.scn.sightCount = 0), .notConfigured),
        ((s.coil k).isNone, .notConfigured) ]

/-- `s` with `kind` in the pending slot. -/
def setPendingSlot (kind : SweepKind) (s : State) : State := s.withScn { s.scn with pendingSlot := some kind }

/-- A valid request handled by the sweep state and the pending slot (R55). -/
def handleSweepRequest (kind : SweepKind) (s : State) : State × Result :=
  match s.scn.sweep, s.scn.pendingSlot, kind with
  | none, _, _ => (startSweep kind s, .ok)
  | some _, none, _ => (setPendingSlot kind s, .ok)
  | some _, some .full, _ => (s, .merged)
  | some _, some (.coil _), .full => (setPendingSlot .full s, .merged)
  | some _, some (.coil j), .coil k => if j = k then (s, .merged) else (s, .scannerBusy)

/-- Request Sweep (R55). -/
def ownRequestSweep (kind : SweepKindArg) : Owner := fun s =>
  let request (k : SweepKind) : State × Answer :=
    match sweepRequestRefusal k s with
    | some r => refuse s r
    | none => ((handleSweepRequest k s).1, .now (handleSweepRequest k s).2 [])
  match kind with
  | .full => request .full
  | .coil k => request (.coil k)
  | .other _ => refuse s .badArgument

/-- A sweep expiry (R57): the counter reloaded, and a Request Sweep of kind Full without a response, or
Sweep Skips raised. With the counter stopped no expiry is issued and nothing happens (log entry 5, DESIGN CHOICE, safe). -/
def sweepExpires (s : State) : State :=
  match s.tmb.sweepCounter with
  | none => s
  | some _ =>
    let t := s.withTmb { s.tmb with sweepCounter := some s.cfg.parameters.sweepPeriod }
    match sweepRequestRefusal .full t with
    | some _ => t.withScn { t.scn with sweepSkips := raise max16 t.scn.sweepSkips }
    | none => (handleSweepRequest .full t).1

/-- Cancel Sweep (R59). -/
def ownCancelSweep : Owner := fun s => (cancelSweepNow s, .now .ok [])

/-! ## Sight edits (R46, R47) -/

/-- The entry a Define Sights gives sight `n`, absent when `n` lies outside its list. -/
def listedEntry (first : Nat) (entries : List (Option Nat)) (n : Nat) : Option (Option Nat) :=
  if first ≤ n then entries[n - first]? else none

/-- The sight table after a taken Define Sights (R46). -/
def sightsAfter (count first : Nat) (entries : List (Option Nat)) (sights : Table Nat) : Table Nat :=
  (List.range count).filterMap fun n =>
    match listedEntry first entries n with
    | some entry => entry.map fun cell => (n, cell)
    | none => (Table.find sights n).map fun cell => (n, cell)

/-- The checks of R46 after the Expected Generation. -/
def defineSightsRefusal (count first : Nat) (entries : List (Option Nat)) (s : State) : Option Result :=
  firstRefusal
    [ (s.scn.sweep.isSome, .scannerBusy),
      (decide (512 < count), .badArgument),
      (decide (entries ≠ [] ∧ count < first + entries.length), .badArgument),
      (entries.any fun x => x.any fun cell => decide (2047 < cell), .badArgument),
      (entries.any fun x => x.any fun cell => !s.inUse cell, .notConfigured),
      (!interleaveValid count s.scn.interleave, .badArgument) ]

/-- A taken Define Sights (R46): the scan records of the sights whose entry changed are made absent. -/
def applyDefineSights (count first : Nat) (entries : List (Option Nat)) (s : State) : State :=
  let sights := sightsAfter count first entries s.scn.sights
  s.withScn
    { s.scn with
      sightCount := count
      sights := sights
      scans := s.scn.scans.filter fun x => decide (Table.find sights x.2.sight = Table.find s.scn.sights x.2.sight) }

/-- Define Sights (R46). -/
def ownDefineSights (l : Link) (expected count first : Nat) (entries : List (Option Nat)) : Owner :=
  edit l expected (defineSightsRefusal count first entries) (fun _ => false)
    (applyDefineSights count first entries) fun _ => []

/-- Set Interleave (R47). -/
def ownSetInterleave (l : Link) (expected factor : Nat) : Owner :=
  edit l expected
    (fun s =>
      firstRefusal
        [ (s.scn.sweep.isSome, .scannerBusy),
          (!interleaveValid s.scn.sightCount factor, .badArgument) ])
    (fun _ => false) (fun s => s.withScn { s.scn with interleave := factor }) fun _ => []

/-! ## Scanner reads (R63, R64, R105) -/

/-- The age of a scan record (R61) (log entry 26, DEDUCED, safe). -/
def ScanRecord.age (x : ScanRecord) (uptime : Nat) : Nat := uptime - x.stamp

/-- The record is within age (R61). -/
def ScanRecord.withinAge (x : ScanRecord) (s : State) : Bool :=
  decide (x.age s.tmb.uptime ≤ s.cfg.parameters.scanAgeLimit)

/-- The sweep record's bytes (R51, R63). -/
def Sweep.encode (x : Sweep) : List Byte :=
  x.kind.encode ++ enc16 x.nextStep ++ enc8 x.attempt ++ enc16 x.taken ++ enc16 x.discarded
    ++ enc16 x.missed ++ enc8 x.missedRun ++ encOption enc8 x.lastFault

/-- The Last Sweep record's bytes (R54, R63). -/
def LastSweep.encode (x : LastSweep) : List Byte :=
  x.kind.encode ++ enc8 x.outcome.position ++ enc16 x.taken ++ enc16 x.discarded ++ enc16 x.missed
    ++ encOption enc8 x.lastFault ++ enc32 x.endStamp ++ encBool x.clockSet

/-- Read Sweep Status (R63). -/
def ownReadSweepStatus : Owner :=
  reads fun s =>
    (.ok,
      encBool s.scn.sweep.isSome ++ encOption Sweep.encode s.scn.sweep ++ encPendingSlot s.scn.pendingSlot
        ++ encOption LastSweep.encode s.scn.lastSweep ++ enc16 s.scn.sweepSkips ++ enc16 s.scn.sightCount
        ++ enc16 s.scn.interleave)

/-- Read Sights (R64); the order of NOT_CONFIGURED before a count of 0 is log entry 31, DESIGN CHOICE, unsafe. -/
def ownReadSights (first count : Nat) : Owner :=
  reads fun s =>
    if 511 < first then (.badArgument, [])
    else if s.scn.sightCount ≤ first then (.notConfigured, [])
    else if count = 0 then (.badArgument, [])
    else
      let n := rangeCount 128 first (s.scn.sightCount - 1) count
      (clampedIf (decide (n ≠ count)), (rangeOf first n).flatMap fun k => encOption enc16 (sightCell s k))

/-- One cell of Read Scan Records: the record with its age and whether it is within age (R64). -/
def encScan (s : State) (cell : Nat) : List Byte :=
  encOption
    (fun x : ScanRecord =>
      enc16 x.sight ++ encInt16 x.temperature ++ enc8 x.signal ++ enc32 x.stamp ++ enc32 (x.age s.tmb.uptime)
        ++ encBool (x.withinAge s))
    (Table.find s.scn.scans cell)

/-- The refusal of a read of cells by number, or how many cells it covers, at most 32 (R64, R99, R118); the order of
NOT_CONFIGURED before a count of 0 is log entry 31, DESIGN CHOICE, unsafe. -/
def cellRange (first count : Nat) (s : State) : Except Result Nat :=
  match s.cellRefusal first with
  | some r => .error r
  | none => if count = 0 then .error .badArgument else .ok (rangeCount 32 first (s.cellTotal - 1) count)

/-- A read of a range of cells by number, in one action (R64, R99). -/
def readCellRange (first count : Nat) (payload : State → Nat → Nat → List Byte) : Owner :=
  reads fun s =>
    match cellRange first count s with
    | .error r => (r, [])
    | .ok n => (clampedIf (decide (n ≠ count)), payload s first n)

/-- Read Scan Records (R64). -/
def ownReadScanRecords (first count : Nat) : Owner :=
  readCellRange first count fun s f n => (rangeOf f n).flatMap (encScan s)

/-- A comparison's bytes (R100, R105). -/
def Comparison.encode (x : Comparison) : List Byte :=
  enc16 x.cell ++ enc16 x.sight ++ encInt32 x.difference ++ enc8 (if x.accepted then 0 else 1)
    ++ encInt16 x.bias ++ enc32 x.uptime

/-- The reply of Read Bias (R105). -/
def biasPayload (s : State) : List Byte :=
  ((List.range 8).flatMap fun k =>
      encBool (s.coil k).isSome ++ encInt16 (s.coilBias k).bias ++ enc8 (s.coilBias k).disagreements
        ++ encOption Comparison.encode (s.coilBias k).last)
    ++ enc16 s.cfg.parameters.disagreeLimit ++ enc8 s.cfg.parameters.biasShift

/-- The eight disagreement counts set to 0 (R105). -/
def clearDisagreements (s : State) : State :=
  (List.range 8).foldl (fun t k => t.setCoilBias k { t.coilBias k with disagreements := 0 }) s

/-- Read Bias (R105). -/
def ownReadBias (l : Link) (clear : Bool) : Owner := fun s =>
  if clear && !s.holdsRights l then refuse s .notPermitted
  else (if clear then clearDisagreements s else s, .now .ok (biasPayload s))

end Sys2Proof.Machine
end

