-- ==== Sys2Proof/Machine/Tubes.lean ====
section
/-! DEFINITION. The evaluation of one tube (section 4.5), the tube write with its peaks (6.4) and its
exposure (6.1). -/

namespace Sys2Proof.Machine

/-! ## Per-cell arrays -/

/-- The cell record of cell `n`. -/
def State.cell (s : State) (n : Nat) : CellRecord := Table.get .blank s.map.cells n

/-- The peak record of cell `n`, absent when there is none. -/
def State.peak (s : State) (n : Nat) : Option Peak := Table.find s.map.peaks n

/-- The exposure accumulator of cell `n`. -/
def State.accumulator (s : State) (n : Nat) : Nat := Table.get 0 s.map.exposure n

/-! ## Step 1: direct sources (R75, R76) -/

/-- Case 1: the cell's usable primary. -/
def measuredSource (s : State) (cell : Nat) : Option Direct :=
  match Table.find s.cfg.primaries cell with
  | none => none
  | some ch => ((s.channel ch).usableValue).map fun v => { value := v, quality := .measured, source := ch }

/-- Case 2: the cell's usable alternate, plus its offset, clamped. -/
def substitutedSource (s : State) (cell : Nat) : Option Direct :=
  match Table.find s.cfg.alternates cell with
  | none => none
  | some x =>
    ((s.channel x.channel).usableValue).map fun v =>
      { value := clampMap (v + x.offset), quality := .substituted, source := x.channel }

/-- Case 3: the cell's scan record within age, plus the scan bias of coil `k`, clamped. -/
def scannedSource (s : State) (k cell : Nat) : Option Direct :=
  match Table.find s.scn.scans cell with
  | none => none
  | some x =>
    if x.withinAge s then
      some { value := clampMap (x.temperature + (s.coilBias k).bias), quality := .scanned, source := x.sight }
    else none

/-- The first case of R75 that holds. -/
def directSource (s : State) (k cell : Nat) : Option Direct :=
  (measuredSource s cell).or ((substitutedSource s cell).or (scannedSource s k cell))

/-! ## Steps 2 and 3: interpolation and extension (R77, R78) -/

/-- The anchor of the tube at elevation `e`, by the list of step 1. -/
def anchorAt (anchors : List (Option Direct)) (e : Nat) : Option Direct := (anchors[e]?).join

/-- The nearest anchor below elevation `e`, with its elevation. -/
def anchorBelow (anchors : List (Option Direct)) : Nat → Option (Nat × Int)
  | 0 => none
  | e + 1 =>
    match anchorAt anchors e with
    | some d => some (e, d.value)
    | none => anchorBelow anchors e

/-- The nearest anchor above elevation `e`, with its elevation. -/
def anchorAbove (anchors : List (Option Direct)) (e : Nat) : Option (Nat × Int) :=
  (List.range' (e + 1) (anchors.length - (e + 1))).findSome? fun j =>
    (anchorAt anchors j).map fun d => (j, d.value)

/-- The elevations between the two anchors (R77). -/
def gapSize (low high : Nat) : Nat := high - low - 1

/-- The interpolated value at elevation `e` (R77). -/
def interpolated (low : Nat × Int) (high : Nat × Int) (e : Nat) : Int :=
  low.2 + roundHalfAway ((high.2 - low.2) * ((e - low.1 : Nat) : Int)) (high.1 - low.1)

/-- Steps 2 and 3 at an elevation without an anchor: a value with its quality, or none. -/
def filled (maxGap : Nat) (anchors : List (Option Direct)) (e : Nat) : Option (Int × Quality) :=
  match anchorBelow anchors e, anchorAbove anchors e with
  | some low, some high =>
    if gapSize low.1 high.1 ≤ maxGap then some (interpolated low high e, .interpolated) else none
  | some low, none => if e - low.1 ≤ maxGap then some (low.2, .extended) else none
  | none, some high => if high.1 - e ≤ maxGap then some (high.2, .extended) else none
  | none, none => none

/-- Elevation `e` is the lowest of a gap above Max Gap, so that each wide gap is counted once (R77). -/
def opensWideGap (maxGap : Nat) (anchors : List (Option Direct)) (e : Nat) : Bool :=
  (anchorAt anchors e).isNone &&
    match anchorBelow anchors e, anchorAbove anchors e with
    | some low, some high => decide (low.1 + 1 = e) && decide (maxGap < gapSize low.1 high.1)
    | _, _ => false

/-- The wide gaps of a tube. -/
def wideGaps (maxGap : Nat) (anchors : List (Option Direct)) : Nat :=
  ((List.range anchors.length).filter (opensWideGap maxGap anchors)).length

/-! ## Steps 4 and 5: neighbour fill and hold (R79, R80) -/

/-- A neighbour's value when it is eligible: rank 4 or above (R79). -/
def eligibleValue (c : CellRecord) : Option Int := if c.quality.atLeast 4 then c.value else none

/-- The value of neighbour fill from the two neighbours (R79). -/
def neighbourValue : Option Int → Option Int → Option Int
  | some v, some w => some (roundHalfAway (v + w) 2)
  | some v, none => some v
  | none, some w => some w
  | none, none => none

/-- The eligible value at elevation `e` of tube `t` of a coil of `d`, where the tube exists. -/
def neighbourAt (s : State) (k : Nat) (d : Dims) (t e : Nat) : Option Int :=
  if t < d.tubes then eligibleValue (s.cell (cellNumber s.geometry k d.elevations t e)) else none

/-- Step 4 for elevation `e` of tube `t` (R79). -/
def neighbourFill (s : State) (k : Nat) (d : Dims) (t e : Nat) : Option Int :=
  neighbourValue (if t = 0 then none else neighbourAt s k d (t - 1) e) (neighbourAt s k d (t + 1) e)

/-- Step 5 (R80). -/
def heldRecord (holdLimit : Nat) (old : CellRecord) : CellRecord :=
  match old.value with
  | none => .blank
  | some v =>
    let age := raise max8 old.heldAge
    { value := some v, quality := if age ≤ holdLimit then .held else .stale, source := none
      passStamp := old.passStamp, heldAge := age }

/-! ## The tube -/

/-- A record that received its value in pass `pass`. -/
def freshRecord (pass : Nat) (v : Int) (q : Quality) (source : Option Nat) : CellRecord :=
  { value := some v, quality := q, source := source, passStamp := pass, heldAge := 0 }

/-- The anchors of tube `t` of coil `k`, bottom first (R75). -/
def tubeAnchors (s : State) (k : Nat) (d : Dims) (t : Nat) : List (Option Direct) :=
  (tubeCells s.geometry k d.elevations t).map (directSource s k)

/-- The new record at elevation `e`, by the five steps. -/
def evaluateCell (s : State) (pass k : Nat) (d : Dims) (t : Nat) (anchors : List (Option Direct)) (e : Nat) :
    CellRecord :=
  match anchorAt anchors e with
  | some x => freshRecord pass x.value x.quality (some x.source)
  | none =>
    match filled s.cfg.parameters.maxGap anchors e with
    | some (v, q) => freshRecord pass v q none
    | none =>
      match neighbourFill s k d t e with
      | some v => freshRecord pass v .neighbour none
      | none => heldRecord s.cfg.parameters.holdLimit (s.cell (cellNumber s.geometry k d.elevations t e))

/-- The new records of a tube, bottom first. -/
def evaluateTube (s : State) (pass k : Nat) (d : Dims) (t : Nat) : List CellRecord :=
  (List.range d.elevations).map (evaluateCell s pass k d t (tubeAnchors s k d t))

/-! ## Peaks and exposure -/

/-- The peak record after a tube write (R114). -/
def peakAfter (old : Option Peak) (c : CellRecord) (clock pass : Nat) : Option Peak :=
  match c.value with
  | none => old
  | some v =>
    if c.quality.atLeast 2 && old.all (fun p => decide (p.value < v)) then
      some { value := v, stamp := clock, pass := pass }
    else old

/-- The multiplier of value `v` (R108). -/
def multiplier (design step : Nat) (v : Int) : Nat :=
  let x := v - design
  if x ≤ 0 then 0 else 2 ^ min (x.toNat / step) 15

/-- The multiplier of a cell, 0 when it is Empty (R109, R118). -/
def CellRecord.multiplier (c : CellRecord) (design step : Nat) : Nat :=
  match c.value with
  | none => 0
  | some v => Machine.multiplier design step v

/-- The accumulator after a tube write (R107, R109). -/
def exposureAfter (old period mult : Nat) : Nat := min (old + period * mult) max32

/-- One cell's part of a tube write: its record, its peak and its accumulator (R74). -/
def writeCell (coil : CoilDef) (pass : Nat) (s : State) (x : Nat × CellRecord) : State :=
  s.withMap
    { s.map with
      cells := Table.put .blank s.map.cells x.1 x.2
      peaks := Table.set s.map.peaks x.1 (peakAfter (s.peak x.1) x.2 s.tmb.heaterClock pass)
      exposure := Table.put 0 s.map.exposure x.1
        (exposureAfter (s.accumulator x.1) s.cfg.parameters.passPeriod (x.2.multiplier coil.design coil.step)) }

/-- The tube write of tube `t` of coil `k` (R74), from the evaluation of the state it finds. -/
def writeTube (pass k : Nat) (coil : CoilDef) (t : Nat) (s : State) : State :=
  ((tubeCells s.geometry k coil.elevations t).zip (evaluateTube s pass k coil.dims t)).foldl
    (writeCell coil pass) s

end Sys2Proof.Machine
end

