-- ==== Sys2Proof/Machine/Zones.lean ====
section
/-! DEFINITION. ALM: zones, the evaluation of a completed pass, alarm records, the limit output and the hot
tube list (chapter 7), and the zone cell list (section 6.6). -/

namespace Sys2Proof.Machine

/-! ## Conditions (R137) -/

def condHigh : CondSet := 1
def condHighHigh : CondSet := 2
def condSpread : CondSet := 4
def condRate : CondSet := 8
def condQuality : CondSet := 16

/-- The set holds some condition of `c`. -/
def hasCond (x c : CondSet) : Bool := decide (x &&& c ≠ 0)

/-- `c` when `holds`, else no condition. -/
def condIf (c : CondSet) (holds : Bool) : CondSet := if holds then c else 0

/-! ## Zones and their cells -/

/-- The definition of zone `z`, absent when Undefined (R122). -/
def State.zone (s : State) (z : Nat) : Option Zone := Table.find s.alm.zones z

/-- The alarm record of zone `z` (R131). -/
def State.alarm (s : State) (z : Nat) : AlarmRecord := Table.get .reset s.alm.records z

/-- The rate window of zone `z`, oldest first (R128). -/
def State.window (s : State) (z : Nat) : List RateEntry := Table.get [] s.alm.windows z

/-- Map Established (R65). -/
def State.established (s : State) : Bool := decide (s.map.mapState = .mapping)

/-- The tube span and the elevation span of a zone (R119). -/
def Zone.tubeSpan (z : Zone) : Nat := z.highTube + 1 - z.lowTube
def Zone.elevationSpan (z : Zone) : Nat := z.highElevation + 1 - z.lowElevation

/-- The zone cell list (R119). -/
def zoneCells (s : State) (z : Zone) : List Nat :=
  match s.coil z.coil with
  | none => []
  | some c =>
    (List.range' z.lowTube z.tubeSpan).flatMap fun t =>
      List.range' (cellNumber s.geometry z.coil c.elevations t z.lowElevation) z.elevationSpan

/-! ## Zone figures (R125 to R130) -/

/-- The values of a zone's cells of rank 2 or above. -/
def trustedValues (s : State) (cells : List Nat) : List Int :=
  cells.filterMap fun n => if (s.cell n).quality.atLeast 2 then (s.cell n).value else none

/-- The highest and the lowest of a list, absent when it is empty. -/
def highest : List Int → Option Int
  | [] => none
  | v :: vs => some (vs.foldl max v)
def lowest : List Int → Option Int
  | [] => none
  | v :: vs => some (vs.foldl min v)

/-- The number of cells whose rank is below the floor, Empty cells included (R125). -/
def lowQualityCount (s : State) (floor : Nat) (cells : List Nat) : Nat :=
  (cells.filter fun n => !(s.cell n).quality.atLeast floor).length

/-- The base entry of the rate: W places back from the newest (R129). -/
def baseEntry (window : List RateEntry) (w : Nat) : Option RateEntry :=
  if w ≤ window.length then window[window.length - w]? else none

/-- The rate in tenths per minute, when it is computed (R129). -/
def rateOf (window : List RateEntry) (w : Nat) (maximum : Option Int) (endUptime : Nat) : Option Int :=
  match baseEntry window w, maximum with
  | some base, some v =>
    match base.maximum with
    | some u =>
      if base.endUptime < endUptime then some (truncated ((v - u) * 60) (endUptime - base.endUptime : Nat)) else none
    | none => none
  | _, _ => none

/-- High or HighHigh against its limit, with the deadband when it held before (R126). -/
def limitHolds (held : Bool) (limit : Int) (deadband : Nat) : Option Int → Bool
  | none => false
  | some v => if held then decide (limit - deadband < v) else decide (limit < v)

/-- Spread (R127). -/
def spreadHolds (held : Bool) (limit deadband trusted : Nat) : Option Int → Option Int → Bool
  | some hi, some lo =>
    decide (2 ≤ trusted) &&
      (if held then decide ((limit : Int) - deadband < hi - lo) else decide ((limit : Int) < hi - lo))
  | _, _ => false

/-- Rate (R129). -/
def rateHolds (limit : Nat) : Option Int → Bool
  | none => false
  | some r => decide ((limit : Int) < r)

/-- The zone figures of one evaluation (R125) (log entry 24, DEDUCED, unsafe). -/
def zoneFigures (s : State) (n : Nat) (z : Zone) (pass endUptime : Nat) : ZoneFigures :=
  let cells := zoneCells s z
  let values := trustedValues s cells
  { maximum := highest values
    minimum := lowest values
    trusted := values.length
    lowQuality := lowQualityCount s z.qualityFloor cells
    rate := rateOf (s.window n) z.rateWindow (highest values) endUptime
    pass := pass }

/-- The new condition set: each enabled condition judged, from the set after the last evaluation (R126 to R130). -/
def judgeConditions (z : Zone) (before : CondSet) (f : ZoneFigures) : CondSet :=
  z.enabled &&&
    (condIf condHigh (limitHolds (hasCond before condHigh) z.highLimit z.deadband f.maximum)
      ||| condIf condHighHigh (limitHolds (hasCond before condHighHigh) z.highHighLimit z.deadband f.maximum)
      ||| condIf condSpread
        (spreadHolds (hasCond before condSpread) z.spreadLimit z.deadband f.trusted f.maximum f.minimum)
      ||| condIf condRate (rateHolds z.rateLimit f.rate)
      ||| condIf condQuality (decide (z.qualityCount < f.lowQuality)))

/-! ## Alarm records (section 7.3) -/

/-- No link has acknowledged. -/
def AckSet.empty : AckSet := { a := false, b := false }

/-- The occurrence number after a raising (R131). -/
def nextOccurrence (n : Nat) : Nat := (n + 1) % 65536

/-- Returned to Normal: all sets and the repeat count emptied, the occurrence number kept (R131). -/
def AlarmRecord.toNormal (r : AlarmRecord) : AlarmRecord := { AlarmRecord.reset with occurrence := r.occurrence }

/-- A new occurrence in Latching mode (R132). -/
def AlarmRecord.raiseNew (cond : CondSet) (r : AlarmRecord) : AlarmRecord :=
  { r with
    state := .activeUnacked, conditions := cond, raised := cond, acknowledged := 0
    occurrence := nextOccurrence r.occurrence, acks := .empty }

/-- The detail that carries an occurrence number and a code (R137). -/
def alarmDetail (occurrence code : Nat) : Int := occurrence + 65536 * code

/-- A record after an evaluation, and the event of the update if there is one. -/
abbrev Evaluated := AlarmRecord × Option (EventKind × Int)

/-- AlarmRaised for a record that has just raised an occurrence. -/
def raisedEvent (r : AlarmRecord) : EventKind × Int := (.alarmRaised, alarmDetail r.occurrence r.conditions.toNat)

/-- Latching mode (R132) (log entry 22, DESIGN CHOICE, safe). -/
def latchingStep (cond : CondSet) (r : AlarmRecord) : Evaluated :=
  let raised := r.raiseNew cond
  match r.state with
  | .normal => if cond = 0 then (r, none) else (raised, some (raisedEvent raised))
  | .activeUnacked =>
    if cond = 0 then
      ({ r with state := .clearedUnacked, conditions := 0 }, some (.alarmCleared, alarmDetail r.occurrence 1))
    else ({ r with conditions := cond, raised := r.raised ||| cond }, none)
  | .activeAcked =>
    if cond = 0 then (r.toNormal, some (.alarmCleared, alarmDetail r.occurrence 0))
    else if cond &&& ~~~r.acknowledged = 0 then ({ r with conditions := cond }, none)
    else (raised, some (raisedEvent raised))
  | .clearedUnacked => if cond = 0 then (r, none) else (raised, some (raisedEvent raised))
  | .active => (r, none)

/-- AlarmRepeat for a record with its conditions as they stand. -/
def repeatEvent (r : AlarmRecord) : EventKind × Int := (.alarmRepeat, alarmDetail r.occurrence r.conditions.toNat)

/-- Repeating mode (R136) (log entry 22, DESIGN CHOICE, safe). -/
def repeatingStep (interval : Nat) (cond : CondSet) (r : AlarmRecord) : Evaluated :=
  match r.state with
  | .normal =>
    if cond = 0 then (r, none)
    else
      let x :=
        { r with
          state := .active, conditions := cond, raised := cond, repeatCount := 0
          occurrence := nextOccurrence r.occurrence }
      (x, some (repeatEvent x))
  | .active =>
    if cond = 0 then (r.toNormal, some (.alarmCleared, alarmDetail r.occurrence 0))
    else
      let x := { r with conditions := cond, raised := r.raised ||| cond, repeatCount := r.repeatCount + 1 }
      if interval ≤ x.repeatCount then ({ x with repeatCount := 0 }, some (repeatEvent x)) else (x, none)
  | _ => (r, none)

/-- A record moved by its zone's mode (R125, step 1). -/
def alarmStep (z : Zone) (cond : CondSet) (r : AlarmRecord) : Evaluated :=
  match z.mode with
  | .latching => latchingStep cond r
  | .repeating => repeatingStep z.repeatInterval cond r

/-! ## The evaluation of a completed pass (R125) -/

/-- The most entries a rate window holds (R128). -/
def windowPlaces : Nat := 16

/-- The window with an entry at its newest end, the oldest removed first when it is full (R128). -/
def pushWindow (window : List RateEntry) (x : RateEntry) : List RateEntry :=
  (if window.length < windowPlaces then window else window.drop 1) ++ [x]

/-- One zone evaluated: its record, its figures, the event of the update, and then its rate window (R125, step 1). -/
def evaluateZone (pass endUptime : Nat) (s : State) (entry : Nat × Zone) : State :=
  let n := entry.1
  let z := entry.2
  let f := zoneFigures s n z pass endUptime
  let r := alarmStep z (judgeConditions z (s.alarm n).conditions f) (s.alarm n)
  let t := s.withAlm
    { s.alm with
      records := Table.put .reset s.alm.records n r.1
      figures := Table.insert s.alm.figures n f
      windows := Table.insert s.alm.windows n
        (pushWindow (s.window n) { pass := pass, maximum := f.maximum, endUptime := endUptime }) }
  match r.2 with
  | none => t
  | some x => appendEvent t { kind := x.1, subject := n, detail := x.2 }

/-- What the limit output is judged to be (R138). -/
def limitCalled (s : State) : Bool :=
  s.established &&
    s.alm.zones.any fun x => hasCond x.2.enabled condHighHigh && hasCond (s.alarm x.1).conditions condHighHigh

/-- The limit output judged again (R138). -/
def judgeLimit (s : State) : State := s.withAlm { s.alm with limitOutput := limitCalled s }

/-- A candidate for the hot tube list (R139). -/
def hotCandidate (s : State) (x : Nat × CellRecord) : Option HotEntry :=
  match x.2.value with
  | none => none
  | some v =>
    if s.inUse x.1 && x.2.quality.atLeast 2 && decide (s.cfg.parameters.watchThreshold ≤ v) then
      some { cell := x.1, value := v, quality := x.2.quality, passStamp := x.2.passStamp }
    else none

/-- The order of the list: value, highest first, then ascending cell number (R139). -/
def HotEntry.before (x y : HotEntry) : Bool := decide (y.value < x.value ∨ (x.value = y.value ∧ x.cell < y.cell))

/-- `x` put in its place in an ordered list. -/
def insertHot (x : HotEntry) : List HotEntry → List HotEntry
  | [] => [x]
  | y :: ys => if x.before y then x :: y :: ys else y :: insertHot x ys

/-- The most entries of the list (R139). -/
def hotPlaces : Nat := 16

/-- The list built from the cell table (R139). -/
def hotListOf (s : State) : List HotEntry :=
  ((s.map.cells.filterMap (hotCandidate s)).foldr insertHot []).take hotPlaces

/-- The list built and published with the number of the completed pass (R139, R140). -/
def publishHotList (pass : Nat) (s : State) : State :=
  s.withAlm { s.alm with hotList := hotListOf s, hotPass := pass }

/-- The evaluation of a completed pass: zones in ascending number, the limit output, the hot tube list (R125). -/
def evaluatePass (pass endUptime : Nat) (s : State) : State :=
  publishHotList pass (judgeLimit (s.alm.zones.foldl (evaluateZone pass endUptime) s))

/-! ## Returns to Normal -/

/-- Every record returned to Normal, the hot tube list emptied with `pass`, the limit output deasserted (R69,
step 3). -/
def silenceAlarms (pass : Nat) (s : State) : State :=
  s.withAlm
    { s.alm with
      records := s.alm.records.filterMap fun x =>
        if x.2.occurrence = 0 then none else some (x.1, x.2.toNormal)
      hotList := [], hotPass := pass, limitOutput := false }

/-- A zone's record returned to Normal, its window emptied and its figures made absent (R124, steps 2 and 3). -/
def resetZone (x : AlarmUnit) (n : Nat) : AlarmUnit :=
  { x with
    records := Table.put .reset x.records n (Table.get .reset x.records n).toNormal
    windows := Table.erase x.windows n
    figures := Table.erase x.figures n }

/-! ## Zone edits (R123, R124) -/

/-- The mode and the Ack Policy that a Define Zone names, absent for other values (R123, check 6). -/
def zoneModeOf : Nat → Option ZoneMode
  | 0 => some .latching
  | 1 => some .repeating
  | _ => none
def ackPolicyOf : Nat → Option AckPolicy
  | 0 => some .either
  | 1 => some .both
  | _ => none

/-- The zone a Define Zone describes, every numeric limit clamped (R122, R123). -/
def zoneOf (x : ZoneArgs) (mode : ZoneMode) (policy : AckPolicy) : Zone :=
  { coil := x.coil, lowTube := x.lowTube, highTube := x.highTube, lowElevation := x.lowElevation
    highElevation := x.highElevation, enabled := x.enabled
    highLimit := clampMap x.highLimit, highHighLimit := clampMap x.highHighLimit
    spreadLimit := clampNat 0 3000 x.spreadLimit, rateLimit := clampNat 1 5000 x.rateLimit
    rateWindow := clampNat 1 15 x.rateWindow, qualityFloor := clampNat 1 7 x.qualityFloor
    qualityCount := clampNat 0 255 x.qualityCount, deadband := clampNat 0 500 x.deadband
    mode := mode, repeatInterval := clampNat 1 255 x.repeatInterval, ackPolicy := policy }

/-- A numeric limit of the request was clamped (R123). -/
def zoneClamped (x : ZoneArgs) : Bool :=
  let z := zoneOf x .latching .either
  decide
    (z.highLimit ≠ x.highLimit ∨ z.highHighLimit ≠ x.highHighLimit ∨ z.spreadLimit ≠ x.spreadLimit
      ∨ z.rateLimit ≠ x.rateLimit ∨ z.rateWindow ≠ x.rateWindow ∨ z.qualityFloor ≠ x.qualityFloor
      ∨ z.qualityCount ≠ x.qualityCount ∨ z.deadband ≠ x.deadband ∨ z.repeatInterval ≠ x.repeatInterval)

/-- The last tube and elevation of a range lie in the coil, and the range is not reversed (R123, checks 4 and 5). -/
def rangeOutside (low high size : Nat) : Bool := decide (high < low ∨ size ≤ high)

/-- The checks of R123 after the Expected Generation. -/
def defineZoneRefusal (zone : Nat) (x : ZoneArgs) (s : State) : Option Result :=
  let outside (f : CoilDef → Bool) : Bool := (s.coil x.coil).any f
  firstRefusal
    [ (decide (31 < zone ∨ 7 < x.coil), .badArgument),
      ((s.coil x.coil).isNone, .notConfigured),
      (outside fun c => rangeOutside x.lowTube x.highTube c.tubes, .badArgument),
      (outside fun c => rangeOutside x.lowElevation x.highElevation c.elevations, .badArgument),
      ((zoneModeOf x.mode).isNone || (ackPolicyOf x.ackPolicy).isNone, .badArgument) ]

/-- Zone `n` given an entry or made Undefined, with steps 2 to 4 of R124. -/
def applyZone (n : Nat) (z : Option Zone) (s : State) : State :=
  judgeLimit (s.withAlm (resetZone { s.alm with zones := Table.set s.alm.zones n z } n))

/-- A taken Define Zone (R124). -/
def applyDefineZone (zone : Nat) (x : ZoneArgs) (s : State) : State :=
  match zoneModeOf x.mode, ackPolicyOf x.ackPolicy with
  | some mode, some policy => applyZone zone (some (zoneOf x mode policy)) s
  | _, _ => s

/-- Define Zone (R123, R124). -/
def ownDefineZone (l : Link) (expected zone : Nat) (x : ZoneArgs) : Owner :=
  edit l expected (defineZoneRefusal zone x) (fun _ => zoneClamped x) (applyDefineZone zone x) fun _ => []

/-- Delete Zone (R124). -/
def ownDeleteZone (l : Link) (expected zone : Nat) : Owner :=
  edit l expected
    (fun s => firstRefusal [(decide (31 < zone), .badArgument), ((s.zone zone).isNone, .notConfigured)])
    (fun _ => false) (applyZone zone none) fun _ => []

/-! ## Acknowledgement (R133, R134) -/

/-- The ack set with a link added; Link E never acknowledges (R133). -/
def AckSet.add (x : AckSet) : Link → AckSet
  | .a => { x with a := true }
  | .b => { x with b := true }
  | .e => x

/-- The ack set completes the policy (R134). -/
def policyComplete (p : AckPolicy) (x : AckSet) : Bool :=
  match p with
  | .either => x.a || x.b
  | .both => x.a && x.b

/-- A record after a taken acknowledgement from `l`, and whether AlarmAcked is appended (R134). -/
def ackRecord (policy : AckPolicy) (l : Link) (r : AlarmRecord) : AlarmRecord × Bool :=
  let x := { r with acks := r.acks.add l }
  match r.state, policyComplete policy x.acks with
  | .activeUnacked, true => ({ x with state := .activeAcked, acknowledged := r.raised }, true)
  | .clearedUnacked, true => (r.toNormal, true)
  | _, _ => (x, false)

/-- The contents of an Acknowledge reply (R133, R172): state, occurrence number, ack set. -/
def ackPayload (r : AlarmRecord) : List Byte := enc8 r.state.position ++ enc16 r.occurrence ++ r.acks.encode

/-- A taken Acknowledge (R134). -/
def takeAck (l : Link) (n : Nat) (z : Zone) (s : State) : State :=
  let x := ackRecord z.ackPolicy l (s.alarm n)
  let t := s.withAlm { s.alm with records := Table.put .reset s.alm.records n x.1 }
  if x.2 then
    appendEvent t
      { kind := .alarmAcked, subject := n
        detail := alarmDetail (s.alarm n).occurrence (linkNumber l + 1) }
  else t

/-- Acknowledge (R133). -/
def ownAcknowledge (l : Link) (zone occurrence : Nat) : Owner := fun s =>
  if 31 < zone then refuse s .badArgument
  else
    match s.zone zone with
    | none => refuse s .notConfigured
    | some z =>
      let r := s.alarm zone
      if z.mode = .repeating ∨ r.state = .normal then (s, .now .nothingToAck (ackPayload r))
      else if occurrence ≠ r.occurrence then (s, .now .staleOccurrence (ackPayload r))
      else (takeAck l zone z s, .now .ok (ackPayload ((takeAck l zone z s).alarm zone)))

/-! ## The bytes of zones and records (R141, R150) -/

/-- A zone definition in the order of R122. -/
def Zone.encode (z : Zone) : List Byte :=
  enc8 z.coil ++ enc8 z.lowTube ++ enc8 z.highTube ++ enc8 z.lowElevation ++ enc8 z.highElevation
    ++ enc8 z.enabled.toNat ++ encInt16 z.highLimit ++ encInt16 z.highHighLimit ++ enc16 z.spreadLimit
    ++ enc16 z.rateLimit ++ enc8 z.rateWindow ++ enc8 z.qualityFloor ++ enc8 z.qualityCount ++ enc16 z.deadband
    ++ enc8 z.mode.position ++ enc8 z.repeatInterval ++ enc8 z.ackPolicy.position

/-- An alarm record in the order of R131 and R141. -/
def AlarmRecord.encode (r : AlarmRecord) : List Byte :=
  enc8 r.state.position ++ enc8 r.conditions.toNat ++ enc8 r.raised.toNat ++ enc8 r.acknowledged.toNat
    ++ enc16 r.occurrence ++ r.acks.encode ++ enc8 r.repeatCount

/-- A zone's last evaluation figures with their pass number (R125, R141). -/
def ZoneFigures.encode (f : ZoneFigures) : List Byte :=
  encOption encInt16 f.maximum ++ encOption encInt16 f.minimum ++ enc16 f.trusted ++ enc16 f.lowQuality
    ++ encOption encInt32 f.rate ++ enc32 f.pass

/-- What both sources give of a zone: a Defined zone's definition, which may be absent, its record and its
figures; an Undefined zone's occurrence number only (R141, R150, R174). The definition's presence byte stands
right after the Defined byte (log entry 33, DESIGN CHOICE, unsafe). -/
def encZoneEntry (isDefined : Bool) (definition : Option Zone) (r : AlarmRecord) (figures : Option ZoneFigures) :
    List Byte :=
  if isDefined then
    encBool true ++ encOption Zone.encode definition ++ r.encode ++ encOption ZoneFigures.encode figures
  else encBool false ++ enc16 r.occurrence

/-- One zone of a live Read Zones, ending for a Defined zone with the number of entries of its rate window
(R141) (log entry 33, DESIGN CHOICE, unsafe). -/
def encLiveZone (s : State) (n : Nat) : List Byte :=
  encZoneEntry (s.zone n).isSome (s.zone n) (s.alarm n) (Table.find s.alm.figures n)
    ++ if (s.zone n).isSome then enc8 (s.window n).length else []

end Sys2Proof.Machine
end

