-- ==== Sys2Proof/Machine/Passes.lean ====
section
/-! DEFINITION. MAP: the map states, the walk of a pass, its ends, stops, and the exposure and peak clears
(chapters 4 and 6). -/

namespace Sys2Proof.Machine

/-! ## Ends of a pass -/

/-- The Last Pass record of a pass that ends now (R84); a reason makes it Abandoned. -/
def lastPassOf (s : State) (p : Pass) (reason : Option AbandonReason) : LastPass :=
  { number := p.number
    completed := reason.isNone
    reason := reason
    generation := p.generation
    tubesWritten := p.tubesWritten
    wideGaps := p.wideGaps
    unanchored := if reason.isNone then some (coilSet s.geometry &&& ~~~p.anchored) else none
    endStamp := s.tmb.heaterClock
    clockSet := s.tmb.clockSet
    endUptime := s.tmb.uptime }

/-- The detail of PassAbandoned (R87). -/
def AbandonReason.detail : AbandonReason → Int
  | .generation => 1
  | .stop => 2

/-- A pass ends Abandoned (R83). -/
def abandonPass (p : Pass) (reason : AbandonReason) (s : State) : State :=
  appendEvent
    (s.withMap { s.map with pass := none, establishCount := 0, lastPass := some (lastPassOf s p (some reason)) })
    { kind := .passAbandoned, subject := p.coil, detail := reason.detail }

/-! ## Stops (R68, R69) -/

/-- The last steps of a stop: the pass timer, the map state, MappingStopped, and the held requests
answered (R69, steps 3 to 6). -/
def finishStop (setter : Link) (abandoned : Bool) (s : State) : State :=
  let t := silenceAlarms s.map.lastCompleted s
  let u := (t.withTmb { t.tmb with passCounter := none }).withMap
    { t.map with stopPending := none, mapState := .stopped }
  answerAllJoined [stopMappingCode] setter []
    (appendEvent u
      { kind := .mappingStopped, subject := linkNumber setter, detail := if abandoned then 1 else 0 })

/-- A stop takes effect (R69): `walking` is the pass it abandons, if any. -/
def stopTakesEffect (setter : Link) (walking : Option Pass) (s : State) : State :=
  let t := match walking with
    | some p => abandonPass p .stop s
    | none => s
  finishStop setter walking.isSome (cancelSweepNow t)

/-- Stop Mapping (R68). -/
def ownStopMapping (l : Link) : Owner := fun s =>
  if s.map.mapState = .stopped then refuse s .wrongState
  else if s.map.pass.isNone then (stopTakesEffect l none s, .now .ok [])
  else if s.map.stopPending.isNone then (s.withMap { s.map with stopPending := some l }, .held)
  else (s, .held)

/-- Start Mapping (R67). -/
def ownStartMapping : Owner := fun s =>
  if s.map.mapState ≠ .stopped then refuse s .wrongState
  else if s.cfg.coils = [] then refuse s .notConfigured
  else
    (((s.withMap { s.map with cells := [], establishCount := 0, mapState := .establishing }).withAlm
        { s.alm with windows := [] }).withTmb
      { s.tmb with passCounter := some s.cfg.parameters.passPeriod },
      .now .ok [])

/-! ## Pass expiry (R71) -/

/-- The number of the pass after pass `n` (R71). -/
def nextPassNumber (n : Nat) : Nat := if n = max32 then 1 else n + 1

/-- The record of a pass at its start (R72); it walks from tube 0 of the lowest-numbered Defined coil. -/
def newPass (s : State) : Pass :=
  { number := nextPassNumber s.map.passNumber
    generation := s.cfg.generation
    phase := .walking
    coil := (firstCoil s.geometry).getD 0
    tube := 0
    tubesWritten := 0
    wideGaps := 0
    anchored := 0 }

/-- An expiry with a pass in progress (R71): an overrun, unless a stop is pending. -/
def overrun (p : Pass) (s : State) : State :=
  if s.map.stopPending.isSome then s
  else
    let n := raise max16 s.map.overruns
    appendEvent (s.withMap { s.map with overruns := n })
      { kind := .passOverrun, subject := p.coil, detail := n }

/-- A pass expiry (R70, R71). With the counter stopped no expiry is issued and nothing happens (log entry 5,
DESIGN CHOICE, safe). -/
def passExpires (s : State) : State :=
  match s.tmb.passCounter with
  | none => s
  | some _ =>
    let t := s.withTmb { s.tmb with passCounter := some s.cfg.parameters.passPeriod }
    match t.map.pass with
    | some p => overrun p t
    | none =>
      t.withMap { t.map with passNumber := nextPassNumber t.map.passNumber, pass := some (newPass t) }

/-! ## Tube steps (R73) -/

/-- The pass record with one more tube written (R73, R75, R77). -/
def Pass.count (p : Pass) (k gaps : Nat) (anchored : Bool) : Pass :=
  { p with
    tubesWritten := p.tubesWritten + 1
    wideGaps := min (p.wideGaps + gaps) max16
    anchored := if anchored then p.anchored ||| oneCoil k else p.anchored }

/-- The establish count after a completion (R85). -/
def establishAfter (count : Nat) (unanchored : CoilSet) : Nat := if unanchored = 0 then raise max8 count else 0

/-- The completion of a pass (R84, R85). The next tube stays the last tube written (log entry 16, DEDUCED, unsafe). The
Last Pass record is written while the pass stays in progress, so in phase Handing off both stand (R84, R86); which of
the two a reply shows is free (R88; log entry 34, DESIGN CHOICE, unsafe). -/
def completePass (p : Pass) (s : State) : State :=
  let count := establishAfter s.map.establishCount (coilSet s.geometry &&& ~~~p.anchored)
  let t := s.withMap
    { s.map with
      pass := some { p with phase := .handingOff }
      lastCompleted := p.number
      lastPass := some (lastPassOf s p none)
      establishCount := count }
  if s.map.mapState = .establishing ∧ s.cfg.parameters.establishPasses ≤ count then
    appendEvent (t.withMap { t.map with mapState := .mapping })
      { kind := .mapEstablished, subject := 0, detail := count }
  else t

/-- The next tube evaluated and written, and the pass moved on or completed (R73, case 3). -/
def walkTube (p : Pass) (c : CoilDef) (s : State) : State :=
  let anchors := tubeAnchors s p.coil c.dims p.tube
  let t := writeTube p.number p.coil c p.tube s
  let q := p.count p.coil (wideGaps s.cfg.parameters.maxGap anchors) (anchors.any (·.isSome))
  match tubeAfter s.geometry p.coil p.tube with
  | some next => t.withMap { t.map with pass := some { q with coil := next.1, tube := next.2 } }
  | none => completePass q t

/-- One tube step of a walking pass (R73). With no pass walking there is no tube step and nothing happens (log
entry 5, DESIGN CHOICE, safe). -/
def tubeSteps (s : State) : State :=
  match s.map.pass with
  | none => s
  | some p =>
    if p.phase = .handingOff then s
    else
      match s.map.stopPending with
      | some l => stopTakesEffect l (some p) s
      | none =>
        if p.generation ≠ s.cfg.generation then abandonPass p .generation s
        else
          match s.coil p.coil with
          | some c => walkTube p c s
          | none => s

/-! ## The hand-off (R86) -/

/-- The end uptime of the pass handed over, from its Last Pass record (R128). -/
def handedUptime (s : State) : Nat := (s.map.lastPass.map LastPass.endUptime).getD 0

/-- The Alarm Unit finishes with the completed pass (R86, R125), and a pending stop takes effect. With
no pass in Handing off nothing happens (log entry 5, DESIGN CHOICE, safe). -/
def handsOff (s : State) : State :=
  match s.map.pass with
  | none => s
  | some p =>
    if p.phase = .walking then s
    else
      let t := if s.established then evaluatePass p.number (handedUptime s) s else s
      let u := t.withMap { t.map with pass := none }
      match u.map.stopPending with
      | some l => stopTakesEffect l none u
      | none => u

/-! ## Clears (R112, R116) -/

/-- The cell numbers of coil `k`, as a test. -/
def inCoil (s : State) (k n : Nat) : Bool := decide (s.coilOfCell n = some k)

/-- Clear Peaks (R116). -/
def ownClearPeaks (form : ClearPeaksForm) : Owner := fun s =>
  match form with
  | .all => (s.withMap { s.map with peaks := [] }, .now .ok [])
  | .coil k =>
    if 7 < k then refuse s .badArgument
    else if (s.coil k).isNone then refuse s .notConfigured
    else (s.withMap { s.map with peaks := Table.restrict (fun n => !inCoil s k n) s.map.peaks }, .now .ok [])

/-- The number of cells of coil `k` whose accumulator is above 0 (R112, step 1). -/
def exposedCells (s : State) (k : Nat) : Nat :=
  (s.map.exposure.filter fun x => inCoil s k x.1 && decide (0 < x.2)).length

/-- Clear Exposure (R112). -/
def ownClearExposure (k : Nat) : Owner := fun s =>
  if 7 < k then refuse s .badArgument
  else if (s.coil k).isNone then refuse s .notConfigured
  else
    (appendEvent
        (s.withMap { s.map with exposure := Table.restrict (fun n => !inCoil s k n) s.map.exposure })
        { kind := .exposureCleared, subject := k, detail := exposedCells s k },
      .now .ok [])

/-! ## Read Map Status (R88) -/

/-- The pass record's bytes (R72, R88). -/
def Pass.encode (p : Pass) : List Byte :=
  enc32 p.number ++ enc16 p.generation ++ enc8 p.phase.position ++ enc8 p.coil ++ enc8 p.tube
    ++ enc16 p.tubesWritten ++ enc16 p.wideGaps ++ enc8 p.anchored.toNat

/-- The Last Pass record's bytes (R84, R88). -/
def LastPass.encode (x : LastPass) : List Byte :=
  enc32 x.number ++ enc8 (if x.completed then 0 else 1)
    ++ encOption (fun r : AbandonReason => enc8 r.position) x.reason
    ++ enc16 x.generation ++ enc16 x.tubesWritten ++ enc16 x.wideGaps
    ++ encOption (fun c : CoilSet => enc8 c.toNat) x.unanchored
    ++ enc32 x.endStamp ++ encBool x.clockSet ++ enc32 x.endUptime

/-- The pass is in phase Handing off (R72, R86). -/
def handingOff (s : State) : Bool := s.map.pass.any fun p => decide (p.phase = .handingOff)

/-- The pass in progress and the Last Pass record as a reply shows them: a pass in phase Handing off, which is both,
once (R88; log entry 34, DESIGN CHOICE, unsafe). -/
def shownPass (s : State) : Option Pass :=
  if handingOff s && !Config.handingOffInProgress then none else s.map.pass
def shownLastPass (s : State) : Option LastPass :=
  if handingOff s && Config.handingOffInProgress then none else s.map.lastPass

/-- Read Map Status (R88). -/
def ownReadMapStatus : Owner :=
  reads fun s =>
    (.ok,
      enc8 s.map.mapState.position ++ encBool s.established ++ encBool s.map.stopPending.isSome
        ++ enc32 s.map.passNumber ++ enc32 s.map.lastCompleted ++ enc8 s.map.establishCount
        ++ enc8 s.cfg.parameters.passPeriod ++ enc8 s.cfg.parameters.maxGap ++ enc8 s.cfg.parameters.holdLimit
        ++ enc8 s.cfg.parameters.establishPasses ++ enc16 s.map.overruns
        ++ encOption Pass.encode (shownPass s) ++ encOption LastPass.encode (shownLastPass s)
        ++ enc16 s.cfg.generation)

end Sys2Proof.Machine
end

