-- ==== Sys2Proof/Machine/ExposureReads.lean ====
section
/-! DEFINITION. The reads of exposure, which take the cells they cover tube by tube: Read Exposure and Zone Exposure
Total (R16, R113, sections 6.5 and 6.6). -/

namespace Sys2Proof.Machine

/-! ## Tubes -/

/-- Cells `n` and `m` stand in one tube of one coil (R16). -/
def onOneTube (s : State) (n m : Nat) : Bool :=
  match placeOf s.geometry n, placeOf s.geometry m with
  | some p, some q => decide (p.coil = q.coil ∧ p.tube = q.tube)
  | _, _ => false

/-- Ascending cells parted into the tubes they stand in. -/
def tubesOf (s : State) : List Nat → List (List Nat)
  | [] => []
  | n :: rest =>
    match tubesOf s rest with
    | (m :: cells) :: tubes =>
      if onOneTube s n m then (n :: m :: cells) :: tubes else [n] :: (m :: cells) :: tubes
    | tubes => [n] :: tubes

/-- What a read takes of cell `n`: its accumulator and its current multiplier (R118, R120). -/
def takeCell (s : State) (n : Nat) : TakenCell :=
  { cell := n
    accumulator := s.accumulator n
    multiplier := match (s.coilOfCell n).bind s.coil with
      | some c => (s.cell n).multiplier c.design c.step
      | none => 0 }

/-! ## Replies -/

/-- One cell of Read Exposure: the accumulator, whether it is saturated, and the current multiplier (R118). -/
def TakenCell.encode (x : TakenCell) : List Byte :=
  enc32 x.accumulator ++ encBool (decide (x.accumulator = max32)) ++ enc16 x.multiplier

/-- The greatest accumulator of the cells taken with the lowest cell that holds it (R120). -/
def greatestCell : List TakenCell → Nat × Nat
  | [] => (0, 0)
  | x :: xs =>
    xs.foldl (fun best y => if best.2 < y.accumulator then (y.cell, y.accumulator) else best) (x.cell, x.accumulator)

/-- The result of a read that has taken all its tubes (R118, R120). -/
def ExposureRead.result (x : ExposureRead) : Result :=
  match x.reply with
  | .cells clamped _ => clampedIf clamped
  | .total _ _ next _ => if next.isSome then .incomplete else .ok

/-- Its reply (R118, R120). -/
def ExposureRead.payload (x : ExposureRead) : List Byte :=
  match x.reply with
  | .cells _ coils => x.taken.flatMap TakenCell.encode ++ coils.flatMap fun c => enc16 c.1 ++ enc16 c.2
  | .total zone first next generation =>
    enc8 zone ++ enc16 first ++ enc16 x.taken.length ++ enc64 (x.taken.map TakenCell.accumulator).sum
      ++ enc16 (greatestCell x.taken).1 ++ enc32 (greatestCell x.taken).2
      ++ enc16 (x.taken.filter fun y => decide (y.accumulator = max32)).length
      ++ encOption enc16 next ++ enc16 generation

/-! ## The walk of a read -/

/-- The next tube taken, whole (R16). -/
def ExposureRead.take (s : State) (x : ExposureRead) : ExposureRead :=
  { x with left := x.left.tail, taken := x.taken ++ (x.left.headD []).map (takeCell s) }

/-- `s` with the read in progress of link `l` replaced. -/
def setRead (s : State) (l : Link) (x : Option ExposureRead) : State :=
  s.withMap { s.map with reads := s.map.reads.set l x }

/-- A read that passes its checks takes its first tube within the action of its request; with more tubes to take the
request is held (R113, R165; log entry 32, DESIGN CHOICE, unsafe). -/
def beginRead (l : Link) (x : ExposureRead) : Owner := fun s =>
  let y := x.take s
  if y.left.isEmpty then (s, .now y.result y.payload) else (setRead s l (some y), .held)

/-- The request held on link `l` answered with its read `y`, which has taken all its tubes (R118, R120). -/
def answerRead (s : State) (l : Link) (y : ExposureRead) : State :=
  answerHeld (setRead s l none) l y.result y.payload

/-- The read in progress of link `l` takes its next tube, and is answered after its last (R113, R118, R120). -/
def takeTube (s : State) (l : Link) : State :=
  match s.map.reads.get l with
  | none => s
  | some x => if (x.take s).left.isEmpty then answerRead s l (x.take s) else setRead s l (some (x.take s))

/-- Each read in progress takes its next tube: what the controller does while no command waits (log entry 32, DESIGN
CHOICE, unsafe). With no read in progress nothing happens. -/
def takeTubes (s : State) : State := [Link.a, Link.b, Link.e].foldl takeTube s

/-- Every tube that is left taken at once (R5, R16). -/
def ExposureRead.takeAll (s : State) (x : ExposureRead) : ExposureRead :=
  { x with left := [], taken := x.taken ++ x.left.flatten.map (takeCell s) }

/-- The read in progress of link `l` takes every tube that it has left, and is answered. -/
def finishRead (s : State) (l : Link) : State :=
  match s.map.reads.get l with
  | none => s
  | some x => answerRead s l (x.takeAll s)

/-- Every read in progress finished: what a coil edit does first, so that each sees the heater wholly as it was before
the edit (R5, R16; log entry 32, DESIGN CHOICE, unsafe). -/
def finishReads (s : State) : State := [Link.a, Link.b, Link.e].foldl finishRead s

/-! ## Requests -/

/-- The coils that a range of cells covers, ascending, each once, with what R118 reports of each. -/
def coilsCovered (s : State) (cells : List Nat) : List (Nat × Nat) :=
  (List.range 8).filterMap fun k =>
    if cells.any (inCoil s k) then (s.coil k).map fun c => (c.design, c.step) else none

/-- Read Exposure (R118). -/
def ownReadExposure (l : Link) (first count : Nat) : Owner := fun s =>
  match cellRange first count s with
  | .error r => refuse s r
  | .ok n =>
    let cells := rangeOf first n
    beginRead l
      { reply := .cells (decide (n ≠ count)) (coilsCovered s cells), left := tubesOf s cells, taken := [] } s

/-- The most cells of one chunk (R120). -/
def chunkPlaces : Nat := 256

/-- Zone Exposure Total (R119, R120): the zone cell list and the generation of the moment the request is taken. -/
def ownZoneExposureTotal (l : Link) (zone resume : Nat) : Owner := fun s =>
  if 31 < zone then refuse s .badArgument
  else
    match s.zone zone with
    | none => refuse s .notConfigured
    | some z =>
      let cells := zoneCells s z
      let next := resume + chunkPlaces
      if cells.length ≤ resume then refuse s .badArgument
      else
        beginRead l
          { reply := .total zone resume (if next < cells.length then some next else none) s.cfg.generation
            left := tubesOf s ((cells.drop resume).take chunkPlaces), taken := [] } s

end Sys2Proof.Machine
end

