-- ==== Sys2Proof/Machine/Freezes.lean ====
section
/-! DEFINITION. FRZ: freezes and the frozen map, and the reads that name a source (chapter 8, R141). -/

namespace Sys2Proof.Machine

/-! ## Taking a freeze -/

/-- The two commands that a freeze may hold (R143). -/
def freezeCommands : List Byte := [freezeMapCode, freezeAndClearPeaksCode]

/-- The parts of a frozen map that its completion takes (R146, steps 1, 2 and 4). -/
def frozenHeader (s : State) (number : Nat) : FrozenHeader :=
  { hotList := s.alm.hotList
    hotPass := s.alm.hotPass
    watchThreshold := s.cfg.parameters.watchThreshold
    zonesDefined := s.alm.zones.map (·.1)
    records := s.alm.records
    figures := s.alm.figures
    mapState := s.map.mapState
    lastCompleted := s.map.lastCompleted
    limitOutput := s.alm.limitOutput
    heaterClock := s.tmb.heaterClock
    clockSet := s.tmb.clockSet
    uptime := s.tmb.uptime
    generation := s.cfg.generation
    freezeNumber := number }

/-- The freeze number after a completed freeze (R142). -/
def nextFreezeNumber (n : Nat) : Nat := if n = max32 then 1 else n + 1

/-- The reply of a completed freeze: the freeze number and the frozen heater clock stamp (R146, step 6). -/
def freezePayload (number clock : Nat) : List Byte := enc32 number ++ enc32 clock

/-- Steps 1 to 5 and 7 of a completion (R146). -/
def fillFrozen (f : Freeze) (s : State) : State :=
  let n := nextFreezeNumber s.frz.freezeNumber
  appendEvent
    (s.withFrz
      { cellCopies := Table.restrict s.inUse s.frz.cellCopies
        peakCopies := Table.restrict s.inUse s.frz.peakCopies
        header := some (frozenHeader s n)
        freezeNumber := n
        freeze := none })
    { kind := .freezeTaken, subject := linkNumber f.starter, detail := if f.clearing then 1 else 0 }

/-- The reply that the completion of a freeze in state `s` gives. -/
def completionPayload (s : State) : List Byte :=
  freezePayload (nextFreezeNumber s.frz.freezeNumber) s.tmb.heaterClock

/-- The completion of a freeze with its held requests answered (R146). -/
def completeFreeze (f : Freeze) (s : State) : State :=
  answerAllJoined freezeCommands f.starter (completionPayload s) (fillFrozen f s)

/-- A freeze started: with no coil Defined it completes at once (R143, R144) (log entry 18, DEDUCED, unsafe). -/
def startFreeze (l : Link) (clearing : Bool) (s : State) : State × Answer :=
  match firstCoil s.geometry with
  | some k => (s.withFrz { s.frz with freeze := some { clearing := clearing, starter := l, next := some (k, 0) } }, .held)
  | none =>
    (fillFrozen { clearing := clearing, starter := l, next := none } s, .now .ok (completionPayload s))

/-- Freeze Map (R143). -/
def ownFreezeMap (l : Link) : Owner := fun s =>
  match s.frz.freeze with
  | none => startFreeze l false s
  | some _ => (s, .held)

/-- Freeze and Clear Peaks (R143). -/
def ownFreezeAndClearPeaks (l : Link) : Owner := fun s =>
  match s.frz.freeze with
  | none => startFreeze l true s
  | some f => if f.clearing then (s, .held) else refuse s .busy

/-- One cell copied, and its live peak made absent in a clearing freeze (R144, R145). -/
def copyCell (clearing : Bool) (s : State) (n : Nat) : State :=
  let t := s.withFrz
    { s.frz with
      cellCopies := Table.put .blank s.frz.cellCopies n (s.cell n)
      peakCopies := Table.set s.frz.peakCopies n (s.peak n) }
  if clearing then t.withMap { t.map with peaks := Table.erase t.map.peaks n } else t

/-- The tube copy of tube `t` of coil `k` (R144). -/
def copyTube (clearing : Bool) (k : Nat) (c : CoilDef) (t : Nat) (s : State) : State :=
  (tubeCells s.geometry k c.elevations t).foldl (copyCell clearing) s

/-- One tube copy (R144, R145). With no freeze walking there is no tube copy and nothing happens (log entry 5,
DESIGN CHOICE, safe). -/
def tubeCopies (s : State) : State :=
  match s.frz.freeze with
  | none => s
  | some f =>
    match f.next with
    | none => s
    | some (k, t) =>
      match s.coil k with
      | none => s
      | some c =>
        let u := copyTube f.clearing k c t s
        u.withFrz { u.frz with freeze := some { f with next := tubeAfter s.geometry k t } }

/-- The completion, once the last tube copy of the walk has been taken (R146); before that nothing happens. -/
def freezeCompletes (s : State) : State :=
  match s.frz.freeze with
  | none => s
  | some f => if f.next.isNone then completeFreeze f s else s

/-! ## Sources (R141, R147, R148) -/

/-- A source: live or frozen; other values of the byte name none (R141, R148). -/
inductive Source
  | live | frozen
  deriving DecidableEq, Repr

/-- The source a byte names (R174). -/
def sourceOf : Nat → Option Source
  | 0 => some .live
  | 1 => some .frozen
  | _ => none

/-- The refusal of a frozen read, if any (R147). -/
def frozenRefusal (s : State) : Option Result :=
  if s.frz.freeze.isSome then some .busy else if s.frz.header.isNone then some .notConfigured else none

/-! ## Read Cells (R148, R149) -/

/-- The count taken: at most 32, and at most the coil's cells (R148). -/
def cellsTaken (cells count : Nat) : Nat := min (min count 32) cells

/-- The cell numbers read, in order, wrapping within the coil (R148). -/
def cellsRead (base cells start count : Nat) : List Nat :=
  (List.range count).map fun j => base + (start + j) % cells

/-- The long form for a count of 16 or below, the short form above (R176). -/
def longForm (count : Nat) : Bool := decide (count ≤ 16)

/-- A cell entry in the form the count calls for (R176). -/
def encCell (long : Bool) (n : Nat) (c : CellRecord) (p : Option Peak) : List Byte :=
  if long then encCellLong n c p else encCellShort n c p

/-- The header of a live reply (R149). -/
def liveCellsHeader (s : State) : List Byte :=
  enc8 s.map.mapState.position ++ enc32 s.map.passNumber ++ enc32 s.map.lastCompleted ++ enc16 s.cfg.generation

/-- The header of a frozen reply (R149). -/
def frozenCellsHeader (h : FrozenHeader) : List Byte :=
  enc32 h.freezeNumber ++ enc32 h.heaterClock ++ encBool h.clockSet ++ enc8 h.mapState.position
    ++ enc32 h.lastCompleted

/-- The payload of a Read Cells: header, form byte, entries (log entry 19, DEDUCED, unsafe). -/
def cellsPayload (header : List Byte) (numbers : List Nat) (cells : Table CellRecord) (peaks : Table Peak) :
    List Byte :=
  let long := longForm numbers.length
  header ++ encBool long ++ numbers.flatMap fun n => encCell long n (Table.get .blank cells n) (Table.find peaks n)

/-- Checks 4 to 6 of R148, and the cells read. -/
def readCoilCells (s : State) (k start count : Nat) (payload : List Nat → List Byte) : Result × List Byte :=
  match s.coil k with
  | none => (.notConfigured, [])
  | some c =>
    if c.dims.cells ≤ start then (.badArgument, [])
    else if count = 0 then (.badArgument, [])
    else
      let n := cellsTaken c.dims.cells count
      (clampedIf (decide (n ≠ count)), payload (cellsRead (baseCell s.geometry k) c.dims.cells start n))

/-- Read Cells (R148, R149). -/
def ownReadCells (source k start count : Nat) : Owner :=
  reads fun s =>
    if 7 < k then (.badArgument, [])
    else
      match sourceOf source with
      | none => (.badArgument, [])
      | some .live =>
        readCoilCells s k start count fun ns => cellsPayload (liveCellsHeader s) ns s.map.cells s.map.peaks
      | some .frozen =>
        match frozenRefusal s, s.frz.header with
        | some r, _ => (r, [])
        | none, some h =>
          readCoilCells s k start count fun ns =>
            cellsPayload (frozenCellsHeader h) ns s.frz.cellCopies s.frz.peakCopies
        | none, none => (.notConfigured, [])

/-! ## Read Hot List and Read Zones (R141, R150) -/

/-- The hot list with its pass number, entry count and Watch Threshold (R176). -/
def hotListPayload (list : List HotEntry) (pass : Nat) (threshold : Int) : List Byte :=
  enc32 pass ++ enc8 list.length ++ encInt16 threshold ++ list.flatMap HotEntry.encode

/-- Read Hot List (R141, R150). -/
def ownReadHotList (source : Nat) : Owner :=
  reads fun s =>
    match sourceOf source with
    | none => (.badArgument, [])
    | some .live => (.ok, hotListPayload s.alm.hotList s.alm.hotPass s.cfg.parameters.watchThreshold)
    | some .frozen =>
      match frozenRefusal s, s.frz.header with
      | some r, _ => (r, [])
      | none, some h =>
        (.ok, hotListPayload h.hotList h.hotPass h.watchThreshold ++ freezePayload h.freezeNumber h.heaterClock)
      | none, none => (.notConfigured, [])

/-- One zone of a frozen Read Zones; the definition is absent (R150) (log entry 33, DESIGN CHOICE, unsafe). -/
def encFrozenZone (h : FrozenHeader) (n : Nat) : List Byte :=
  encZoneEntry (decide (n ∈ h.zonesDefined)) none (Table.get .reset h.records n) (Table.find h.figures n)

/-- The zones of a read, with the refusals and clamping of R141. -/
def readZoneRange (first count : Nat) (payload : List Nat → List Byte) : Result × List Byte :=
  if 31 < first ∨ count = 0 then (.badArgument, [])
  else
    let n := rangeCount 8 first 31 count
    (clampedIf (decide (n ≠ count)), payload (rangeOf first n))

/-- Read Zones (R141, R150). -/
def ownReadZones (source first count : Nat) : Owner :=
  reads fun s =>
    match sourceOf source with
    | none => (.badArgument, [])
    | some .live =>
      readZoneRange first count fun ns =>
        ns.flatMap (encLiveZone s) ++ encBool s.established ++ encBool s.alm.limitOutput ++ enc16 s.cfg.generation
    | some .frozen =>
      match frozenRefusal s, s.frz.header with
      | some r, _ => (r, [])
      | none, some h =>
        readZoneRange first count fun ns =>
          ns.flatMap (encFrozenZone h) ++ encBool (decide (h.mapState = .mapping)) ++ encBool h.limitOutput
            ++ enc16 h.generation ++ enc32 h.freezeNumber
      | none, none => (.notConfigured, [])

end Sys2Proof.Machine
end

