-- ==== Sys2Proof/Machine/Coils.lean ====
section
/-! DEFINITION. CFG: the coil edits with the cell correspondence, and the anchor and alternate edits
(chapters 1 and 5). -/

namespace Sys2Proof.Machine

/-! ## The dependence rule (R93) -/

/-- Channel `a` is the primary of a cell of `cell`'s coil and tube at another elevation. -/
def primaryElsewhereOnTube (s : State) (cell a : Nat) : Bool :=
  match placeOf s.geometry cell with
  | none => false
  | some p =>
    s.cfg.primaries.any fun x =>
      decide (x.2 = a) &&
        match placeOf s.geometry x.1 with
        | some q => decide (q.coil = p.coil ∧ q.tube = p.tube ∧ q.elevation ≠ p.elevation)
        | none => false

/-- Why the alternate of `cell` no longer stands: cause 1 or 2 (R93); absent while it stands. -/
def releaseCause (s : State) (cell : Nat) (x : Alternate) : Option Nat :=
  if (Table.find s.cfg.primaries cell).isNone then some 1
  else if primaryElsewhereOnTube s cell x.channel then none
  else some 2

/-- The detail of AlternateReleased (R98). -/
def releaseDetail (channel cause : Nat) : Int := channel + 128 * cause

/-- The AlternateReleased events of the dependence rule, in ascending order of the cell (R93). -/
def dependenceNotes (s : State) : List Note :=
  s.cfg.alternates.filterMap fun x =>
    (releaseCause s x.1 x.2).map fun cause =>
      { kind := .alternateReleased, subject := x.1, detail := releaseDetail x.2.channel cause }

/-- The alternates that no longer stand released (R93). -/
def releaseDependents (s : State) : State :=
  s.withCfg { s.cfg with alternates := s.cfg.alternates.filter fun x => (releaseCause s x.1 x.2).isNone }

/-! ## The cell correspondence (R7 to R10) -/

/-- A zone whose coil is Undefined or whose ranges leave it (R9). -/
def zoneLost (coils : Table CoilDef) (z : Zone) : Bool :=
  match Table.find coils z.coil with
  | none => true
  | some c => decide (c.tubes ≤ z.highTube ∨ c.elevations ≤ z.highElevation)

/-- The zones that a coil edit makes Undefined, with their records, windows and figures (R9, R124). -/
def dropZones (coils : Table CoilDef) (x : AlarmUnit) : AlarmUnit :=
  let lost := (x.zones.filter fun e => zoneLost coils e.2).map (·.1)
  lost.foldl resetZone { x with zones := x.zones.filter fun e => !zoneLost coils e.2 }

/-- The frozen map emptied; the freeze number is kept (R9, R142). -/
def FreezeUnit.discard (x : FreezeUnit) : FreezeUnit := { x with cellCopies := [], peakCopies := [], header := none }

/-- A coil edit of coil `k` applied whole (R5, R6, R8, R9, R10, R93, R100): the entry, the blank state of
every cell that is not kept, the tables that refer to cells, coil `k`'s bias, the retained geometry. -/
def applyCoilEdit (k : Nat) (entry : Option CoilDef) (s : State) : State :=
  let coils := Table.set s.cfg.coils k entry
  let kept := cellKept s.geometry (geometryOf coils)
  let t : State :=
    { s with
      cfg :=
        { s.cfg with
          coils := coils
          primaries := Table.restrict kept s.cfg.primaries
          alternates := Table.restrict kept s.cfg.alternates }
      map :=
        { s.map with
          cells := Table.restrict kept s.map.cells
          peaks := Table.restrict kept s.map.peaks
          exposure := Table.restrict kept s.map.exposure
          retainedGeometry := geometryOf coils }
      scn :=
        { s.scn with
          scans := Table.restrict kept s.scn.scans
          sights := s.scn.sights.filter fun x => kept x.2
          biases := Table.erase s.scn.biases k }
      alm := dropZones coils s.alm
      frz := if allKept s.geometry (geometryOf coils) then s.frz else s.frz.discard }
  releaseDependents t

/-- A coil edit of coil `k` as it is taken: each read of exposure in progress ends on the heater as it was before the
edit, and the edit is applied whole (R5, R6; log entry 32, DESIGN CHOICE, unsafe). -/
def takeCoilEdit (k : Nat) (entry : Option CoilDef) (s : State) : State := applyCoilEdit k entry (finishReads s)

/-! ## Define Coil and Delete Coil (R4 to R6) -/

/-- The coil entry of a Define Coil, the temperature fields clamped (R4). -/
def coilOf (tubes elevations design step : Nat) : CoilDef :=
  { tubes := tubes, elevations := elevations, design := clampNat 5000 12000 design, step := clampNat 50 300 step }

/-- The checks of R4 after the Expected Generation. -/
def defineCoilRefusal (k : Nat) (entry : CoilDef) (s : State) : Option Result :=
  firstRefusal
    [ (decide (s.map.mapState ≠ .stopped), .wrongState),
      (decide (7 < k), .badArgument),
      (decide (¬(1 ≤ entry.tubes ∧ entry.tubes ≤ 64) ∨ ¬(1 ≤ entry.elevations ∧ entry.elevations ≤ 8)), .badArgument),
      (s.frz.freeze.isSome, .busy),
      (s.scn.sweep.isSome, .scannerBusy),
      (decide (2048 < Machine.cellTotal (geometryOf (Table.insert s.cfg.coils k entry))), .capacity) ]

/-- Define Coil (R4, R5). -/
def ownDefineCoil (l : Link) (expected k tubes elevations design step : Nat) : Owner :=
  let entry := coilOf tubes elevations design step
  edit l expected (defineCoilRefusal k entry) (fun _ => decide (entry.design ≠ design ∨ entry.step ≠ step))
    (takeCoilEdit k (some entry)) fun _ => []

/-- Delete Coil (R6). -/
def ownDeleteCoil (l : Link) (expected k : Nat) : Owner :=
  edit l expected
    (fun s =>
      firstRefusal
        [ (decide (s.map.mapState ≠ .stopped), .wrongState),
          (decide (7 < k), .badArgument),
          ((s.coil k).isNone, .notConfigured),
          (s.frz.freeze.isSome, .busy),
          (s.scn.sweep.isSome, .scannerBusy) ])
    (fun _ => false) (takeCoilEdit k none) fun _ => []

/-! ## Anchor edits (R90 to R92) -/

/-- The primaries after X is moved to cell C (R91, steps 1 and 2). -/
def movePrimary (primaries : Table Nat) (cell channel : Nat) : Table Nat :=
  Table.insert (primaries.filter fun x => decide (x.2 ≠ channel)) cell channel

/-- `s` with other primaries, before the dependence rule. -/
def withPrimaries (s : State) (p : Table Nat) : State := s.withCfg { s.cfg with primaries := p }

/-- The checks that name a cell, as checks of an edit (R3). -/
def cellChecks (s : State) (cell : Nat) : List (Bool × Result) :=
  [(decide (2047 < cell), .badArgument), (!s.inUse cell, .notConfigured)]

/-- Assign Anchor (R90, R91). -/
def ownAssignAnchor (l : Link) (expected cell channel : Nat) : Owner :=
  let moved (s : State) : State := withPrimaries s (movePrimary s.cfg.primaries cell channel)
  edit l expected
    (fun s =>
      firstRefusal
        (cellChecks s cell ++
          [ (decide (channelCount ≤ channel), .badArgument),
            (decide ((s.channel channel).state = .unused), .notConfigured) ]))
    (fun _ => false) (fun s => releaseDependents (moved s)) fun s => dependenceNotes (moved s)

/-- Release Anchor (R92). -/
def ownReleaseAnchor (l : Link) (expected cell : Nat) : Owner :=
  let moved (s : State) : State := withPrimaries s (Table.erase s.cfg.primaries cell)
  edit l expected
    (fun s =>
      firstRefusal (cellChecks s cell ++ [((Table.find s.cfg.primaries cell).isNone, .notConfigured)]))
    (fun _ => false) (fun s => releaseDependents (moved s)) fun s => dependenceNotes (moved s)

/-! ## Alternate edits (R94 to R96) -/

/-- The cell's primary is Failed or Retired (R94, check 4). -/
def primaryOutOfService (s : State) (cell : Nat) : Bool :=
  match Table.find s.cfg.primaries cell with
  | none => false
  | some ch => decide ((s.channel ch).state = .failed ∨ (s.channel ch).state = .retired)

/-- The alternate offset clamped (R95). -/
def clampOffset (offset : Int) : Int := clampInt (-500) 500 offset

/-- Assign Alternate (R94, R95). -/
def ownAssignAlternate (l : Link) (expected cell channel : Nat) (offset : Int) : Owner :=
  edit l expected
    (fun s =>
      let state := (s.channel channel).state
      firstRefusal
        [ (decide (2047 < cell ∨ channelCount ≤ channel), .badArgument),
          (!s.inUse cell, .notConfigured),
          (!primaryOutOfService s cell, .primaryInService),
          (decide (state = .unused ∨ state = .failed ∨ state = .retired), .alternateBad),
          (isAlternate s channel, .alternateInUse),
          (!primaryElsewhereOnTube s cell channel, .badArgument) ])
    (fun _ => decide (clampOffset offset ≠ offset))
    (fun s =>
      s.withCfg
        { s.cfg with
          alternates := Table.insert s.cfg.alternates cell { channel := channel, offset := clampOffset offset } })
    fun s =>
      (match Table.find s.cfg.alternates cell with
        | some old => [{ kind := .alternateReleased, subject := cell, detail := releaseDetail old.channel 3 }]
        | none => [])
        ++ [{ kind := .alternateAssigned, subject := cell, detail := channel }]

/-- Release Alternate (R96). -/
def ownReleaseAlternate (l : Link) (expected cell : Nat) : Owner :=
  edit l expected
    (fun s =>
      firstRefusal (cellChecks s cell ++ [((Table.find s.cfg.alternates cell).isNone, .notConfigured)]))
    (fun _ => false)
    (fun s => s.withCfg { s.cfg with alternates := Table.erase s.cfg.alternates cell })
    fun s =>
      match Table.find s.cfg.alternates cell with
      | some old => [{ kind := .alternateReleased, subject := cell, detail := releaseDetail old.channel 0 }]
      | none => []

/-! ## Reads (R11, R99) -/

/-- One coil of Read Coil Table (R11). -/
def encCoil (s : State) (k : Nat) : List Byte :=
  enc8 k ++ encBool (s.coil k).isSome
    ++ encOption
      (fun c : CoilDef =>
        enc8 c.tubes ++ enc8 c.elevations ++ enc16 c.dims.cells ++ enc16 c.design ++ enc16 c.step
          ++ enc16 (baseCell s.geometry k))
      (s.coil k)

/-- Read Coil Table (R11). -/
def ownReadCoilTable : Owner :=
  reads fun s => (.ok, (List.range 8).flatMap (encCoil s) ++ enc16 s.cellTotal ++ enc16 s.cfg.generation)

/-- The state of a channel and whether it is usable (R99). -/
def encService (s : State) (ch : Nat) : List Byte :=
  enc8 (s.channel ch).state.position ++ encBool (s.channel ch).usableValue.isSome

/-- The serving source by cases 1 and 2 of R75: Primary 0, Alternate 1, None 2 (R99). -/
def servingSource (s : State) (cell : Nat) : Nat :=
  if (measuredSource s cell).isSome then 0 else if (substitutedSource s cell).isSome then 1 else 2

/-- One cell of Read Anchors (R99). -/
def encAnchor (s : State) (cell : Nat) : List Byte :=
  encOption (fun ch => enc8 ch ++ encService s ch) (Table.find s.cfg.primaries cell)
    ++ encOption (fun x : Alternate => enc8 x.channel ++ encInt16 x.offset ++ encService s x.channel)
      (Table.find s.cfg.alternates cell)
    ++ enc8 (servingSource s cell)

/-- The cell that channel `ch` is the primary of, and the cell it is the alternate of. -/
def primaryCell (s : State) (ch : Nat) : Option Nat :=
  (s.cfg.primaries.find? fun x => decide (x.2 = ch)).map (·.1)
def alternateCell (s : State) (ch : Nat) : Option Nat :=
  (s.cfg.alternates.find? fun x => decide (x.2.channel = ch)).map (·.1)

/-- One channel of Read Anchors by channel (R99). -/
def encChannelAnchors (s : State) (ch : Nat) : List Byte :=
  encOption enc16 (primaryCell s ch) ++ encOption enc16 (alternateCell s ch)

/-- Read Anchors (R99). -/
def ownReadAnchors (form : ReadAnchorsForm) : Owner :=
  match form with
  | .byCell first count =>
    readCellRange first count fun s f n => (rangeOf f n).flatMap (encAnchor s) ++ enc16 s.cfg.generation
  | .byChannel first count =>
    reads fun s =>
      if channelCount ≤ first ∨ count = 0 then (.badArgument, [])
      else
        let n := rangeCount 32 first (channelCount - 1) count
        (clampedIf (decide (n ≠ count)), (rangeOf first n).flatMap (encChannelAnchors s) ++ enc16 s.cfg.generation)

end Sys2Proof.Machine
end

