-- ==== Sys2Proof/Machine/EventRequests.lean ====
section
/-! DEFINITION. EVT's requests: Read Events, Clear Flags, Set Mask (chapter 9), and the status read (R170). -/

namespace Sys2Proof.Machine

/-- The part of EVT that link `l` owns. -/
def State.eventLink (s : State) (l : Link) : EventLink := s.evt.links.get l

/-- `s` with link `l`'s part of EVT changed by `f`. -/
def onEventLink (s : State) (l : Link) (f : EventLink → EventLink) : State := s.withEvt (s.evt.onLink l f)

/-! ## Read Events (R155, R156) -/

/-- The most entries one Read Events returns (R155). -/
def readEventsLimit : Nat := 8

/-- The entries a read returns from `cursor` on, at most `count` (R155). -/
def entriesFrom (x : EventUnit) (cursor count : Nat) : List Event :=
  ((x.history.filter fun y => decide (cursor ≤ y.sequence))).take count

/-- The cursor after a read from `cursor` that returns `entries` (R155). -/
def cursorAfter (cursor : Nat) (entries : List Event) : Nat :=
  match entries.getLast? with
  | some y => y.sequence + 1
  | none => cursor

/-- The loss indication: the count, the first and the last lost sequence number (R156, R176). -/
def lossPayload (cursor oldest : Nat) : List Byte :=
  if cursor < oldest then enc8 1 ++ enc32 (oldest - cursor) ++ enc32 cursor ++ enc32 (oldest - 1) else enc8 0

/-- Read Events (R155, R156). -/
def ownReadEvents (l : Link) (count : Nat) : Owner := fun s =>
  if count = 0 then refuse s .badArgument
  else
    let x := s.evt
    let cursor := (s.eventLink l).cursor
    let lost := decide (cursor < x.oldest)
    let start := max cursor x.oldest
    let entries := entriesFrom x start (min count readEventsLimit)
    let after := cursorAfter start entries
    let moved (y : EventLink) : EventLink := { y with cursor := after }
    let t := onEventLink s l fun y => if lost then (moved y).setFlags historyLoss else moved y
    (t,
      .now (clampedIf (decide (readEventsLimit < count)))
        (lossPayload cursor x.oldest ++ enc32 after ++ enc32 x.oldest ++ enc32 x.nextSequence
          ++ enc8 entries.length ++ entries.flatMap Event.encode))

/-! ## Clear Flags and Set Mask (R158, R160) -/

/-- The ten flags of a two-byte set, absent when it names a flag not among them (R158, R160). -/
def tenFlags (w : BitVec 16) : Option FlagSet := if w.toNat < 1024 then some (w.setWidth 10) else none

/-- Clear Flags (R158). -/
def ownClearFlags (l : Link) (flags : BitVec 16) : Owner := fun s =>
  match tenFlags flags with
  | none => refuse s .badArgument
  | some f => (onEventLink s l (EventLink.clearFlags f), .now .ok [])

/-- Set Mask (R160). -/
def ownSetMask (l : Link) (mask : BitVec 16) (autoClear : Bool) : Owner := fun s =>
  match tenFlags mask with
  | none => refuse s .badArgument
  | some m =>
    (onEventLink s l fun x => ({ x with mask := m, autoClear := autoClear }).judge, .now .ok [])

/-! ## Read Status (R159, R170) -/

/-- The bit rate the straps choose (R161). -/
def bitRate (strap1 strap0 : Bool) : Nat :=
  match strap1, strap0 with
  | false, false => 57600
  | false, true => 115200
  | true, false => 230400
  | true, true => 460800

/-- A last refusal's bytes: the Command code and the result code (R169, R172) (log entry 19, DEDUCED, unsafe). -/
def Refused.encode (x : Refused) : List Byte := [x.command] ++ enc8 x.result.code

/-- The items of R170, in its order. -/
def statusPayload (s : State) (l : Link) : List Byte :=
  let x := s.eventLink l
  let y := s.lnk.links.get l
  enc8 (linkNumber l) ++ encBool (s.holdsRights l)
    ++ encBool (s.holdsRights .a) ++ encBool (s.holdsRights .b) ++ encBool (s.holdsRights .e)
    ++ enc32 (bitRate s.lnk.strap1 s.lnk.strap0)
    ++ enc16 y.frameErrors ++ encOption Refused.encode y.lastRefusal
    ++ enc16 x.flags.toNat ++ enc16 x.mask.toNat ++ encBool x.autoClear
    ++ enc32 x.cursor ++ enc32 s.evt.oldest ++ enc32 s.evt.nextSequence
    ++ enc8 s.map.mapState.position ++ encBool s.established ++ encBool s.alm.limitOutput
    ++ enc16 s.cfg.generation ++ encBool s.cfg.unsavedEdits ++ encBool s.nvs.configLost ++ encBool s.nvs.exposureLost
    ++ enc32 s.tmb.heaterClock ++ encBool s.tmb.clockSet ++ enc32 s.tmb.uptime

/-- Read Status (R170); with Auto Clear on, the flags it reports as set are cleared (R159). -/
def ownReadStatus (l : Link) : Owner := fun s =>
  let x := s.eventLink l
  (if x.autoClear then onEventLink s l (EventLink.clearFlags x.flags) else s, .now .ok (statusPayload s l))

end Sys2Proof.Machine
end

