-- ==== Sys2Proof/Machine/Parameters.lean ====
section
/-! DEFINITION. CFG's controller-wide edits and reads: parameters, edit rights, Auto Start (R178), and the
clock (R183). -/

namespace Sys2Proof.Machine

/-- The value of parameter `n` clamped by its row of R178. -/
def clampParameter (n : Nat) (v : Int) : Int :=
  match n with
  | 1 => clampInt 1 100 v
  | 2 => clampInt 1 15 v
  | 3 => clampInt 1 255 v
  | 4 => if v = 0 then 0 else if v < 0 then 0 else clampInt 60 86400 v
  | 5 => clampInt 50 2000 v
  | 6 => clampInt 0 3 v
  | 7 => clampInt 0 255 v
  | 8 => clampInt 10 7200 v
  | 9 => clampInt 1 60 v
  | 10 => clampInt 1 7 v
  | 11 => clampInt 1 255 v
  | 12 => clampInt 1 16 v
  | 13 => clampInt 10 2000 v
  | 14 => clampInt 0 7 v
  | 15 => clampInt (-500) 12500 v
  | 16 => clampInt 0 24 v
  | _ => v

/-- Parameter `n` set to a value already clamped. -/
def Parameters.set (p : Parameters) (n : Nat) (v : Int) : Parameters :=
  match n with
  | 1 => { p with samplePeriod := v.toNat }
  | 2 => { p with confirmCount := v.toNat }
  | 3 => { p with failTime := v.toNat }
  | 4 => { p with sweepPeriod := v.toNat }
  | 5 => { p with replyTimeout := v.toNat }
  | 6 => { p with scanRetries := v.toNat }
  | 7 => { p with minSignal := v.toNat }
  | 8 => { p with scanAgeLimit := v.toNat }
  | 9 => { p with passPeriod := v.toNat }
  | 10 => { p with maxGap := v.toNat }
  | 11 => { p with holdLimit := v.toNat }
  | 12 => { p with establishPasses := v.toNat }
  | 13 => { p with disagreeLimit := v.toNat }
  | 14 => { p with biasShift := v.toNat }
  | 15 => { p with watchThreshold := v }
  | 16 => { p with exposureSavePeriod := v.toNat }
  | _ => p

/-- Every pair of a list applied, clamped (R178). -/
def Parameters.setAll (p : Parameters) (pairs : List ParameterPair) : Parameters :=
  pairs.foldl (fun q x => q.set x.number (clampParameter x.number x.value)) p

/-- A period of 0 stops its counter; any other loads it (R58, R181). -/
def counterOf (period : Nat) : Option Nat := if period = 0 then none else some period

/-- A counter after an edit of its period: reloaded or stopped when the period changes, else as it was (R58, R181). -/
def reloadCounter (old new : Nat) (counter : Option Nat) : Option Nat :=
  if old = new then counter else counterOf new

/-- The refusal of R178: a number outside 1 to 16, or one parameter twice. -/
def setParametersRefusal (pairs : List ParameterPair) : Option Result :=
  firstRefusal
    [ (pairs.any fun x => decide (x.number < 1 ∨ 16 < x.number), .badArgument),
      (decide ¬(pairs.map (·.number)).Nodup, .badArgument) ]

/-- A taken Set Parameters (R178). -/
def applyParameters (pairs : List ParameterPair) (s : State) : State :=
  let old := s.cfg.parameters
  let new := old.setAll pairs
  (s.withCfg { s.cfg with parameters := new }).withTmb
    { s.tmb with
      sweepCounter := reloadCounter old.sweepPeriod new.sweepPeriod s.tmb.sweepCounter
      exposureSaveCounter := reloadCounter old.exposureSavePeriod new.exposureSavePeriod s.tmb.exposureSaveCounter }

/-- Set Parameters (R178). -/
def ownSetParameters (l : Link) (expected : Nat) (pairs : List ParameterPair) : Owner :=
  edit l expected (fun _ => setParametersRefusal pairs)
    (fun _ => pairs.any fun x => decide (clampParameter x.number x.value ≠ x.value))
    (applyParameters pairs) fun _ => []

/-- Set Edit Rights (R168, R178). -/
def ownSetEditRights (l : Link) (expected : Nat) (markerA markerB : Bool) : Owner :=
  edit l expected (fun _ => none) (fun _ => false)
    (fun s => s.withCfg { s.cfg with rightsA := markerA, rightsB := markerB }) fun _ => []

/-- Set Auto Start (R178). -/
def ownSetAutoStart (l : Link) (expected : Nat) (on : Bool) : Owner :=
  edit l expected (fun _ => none) (fun _ => false)
    (fun s => s.withCfg { s.cfg with autoStart := on }) fun _ => []

/-- The sixteen parameters, in their order (R178). -/
def Parameters.encode (p : Parameters) : List Byte :=
  enc8 p.samplePeriod ++ enc8 p.confirmCount ++ enc8 p.failTime ++ enc32 p.sweepPeriod ++ enc16 p.replyTimeout
    ++ enc8 p.scanRetries ++ enc8 p.minSignal ++ enc16 p.scanAgeLimit ++ enc8 p.passPeriod ++ enc8 p.maxGap
    ++ enc8 p.holdLimit ++ enc8 p.establishPasses ++ enc16 p.disagreeLimit ++ enc8 p.biasShift
    ++ encInt16 p.watchThreshold ++ enc8 p.exposureSavePeriod

/-- Read Parameters (R178). -/
def ownReadParameters : Owner :=
  reads fun s =>
    (.ok,
      s.cfg.parameters.encode ++ encBool s.cfg.autoStart ++ encBool (s.holdsRights .a) ++ encBool (s.holdsRights .b)
        ++ encBool (s.holdsRights .e) ++ enc16 s.cfg.generation ++ encBool s.cfg.unsavedEdits)

/-- Set Clock (R183): ClockSet is appended after the load, so its stamp is the new clock (R154). -/
def ownSetClock (l : Link) (value : Nat) : Owner := fun s =>
  (appendEvent (s.withTmb { s.tmb with heaterClock := value, clockSet := true })
      { kind := .clockSet, subject := linkNumber l, detail := if s.tmb.clockSet then 1 else 0 },
    .now .ok [])

/-- One second (R183): the uptime stops at its maximum, the heater clock wraps to 0. -/
def secondPasses (s : State) : State :=
  s.withTmb
    { s.tmb with
      uptime := raise max32 s.tmb.uptime
      heaterClock := if s.tmb.heaterClock < max32 then s.tmb.heaterClock + 1 else 0 }

end Sys2Proof.Machine
end

