-- ==== Sys2Proof/Machine/Saves.lean ====
section
/-! DEFINITION. NVS: the two images, saves and their ends, and Check Store (section 11.2). -/

namespace Sys2Proof.Machine

/-! ## Images (R179) -/

/-- The sum of all bytes, modulo 2³² (R179). -/
def byteSum (bytes : List Byte) : BitVec 32 := BitVec.ofNat 32 ((bytes.map BitVec.toNat).sum)

/-- The checksums of the two images, over their other bytes (R179; the bytes are log entry 10, DESIGN CHOICE,
safe). -/
def configChecksum (x : ConfigImage) : BitVec 32 := byteSum (Config.configImageBytes x)
def exposureChecksum (x : ExposureImage) : BitVec 32 := byteSum (Config.exposureImageBytes x)

/-- The channels a configuration image holds: configuration and Retired mark of each configured channel. -/
def channelImages (channels : Table Channel) : Table ChannelImage :=
  channels.filterMap fun x =>
    x.2.config.map fun cfg => (x.1, { config := cfg, retired := decide (x.2.state = .retired) })

/-- The configuration as it stands (R179, R180, step 1). -/
def captureConfig (s : State) : ConfigImage :=
  { coils := s.cfg.coils
    channels := channelImages s.acq.channels
    primaries := s.cfg.primaries
    alternates := s.cfg.alternates
    sightCount := s.scn.sightCount
    sights := s.scn.sights
    interleave := s.scn.interleave
    zones := s.alm.zones
    parameters := s.cfg.parameters
    rightsA := s.cfg.rightsA
    rightsB := s.cfg.rightsB
    autoStart := s.cfg.autoStart
    masks := s.evt.links.map EventLink.mask
    autoClears := s.evt.links.map EventLink.autoClear
    generation := s.cfg.generation }

/-- The whole capture of the accumulators and the retained geometry (R111). -/
def captureExposure (s : State) : ExposureImage := { exposure := s.map.exposure, geometry := s.map.retainedGeometry }

/-! ## Saves (R180, R181) -/

/-- `s` with the save in flight replaced. -/
def withSave (s : State) (x : Option Save) : State := s.withNvs { s.nvs with save := x }

/-- Save Configuration (R180). -/
def ownSaveConfiguration (l : Link) : Owner := fun s =>
  if s.nvs.save.isSome then refuse s .busy
  else (withSave s (some { capture := .config (captureConfig s), requester := some l }), .held)

/-- Save Exposure (R180). -/
def ownSaveExposure (l : Link) : Owner := fun s =>
  if s.nvs.save.isSome then refuse s .busy
  else (withSave s (some { capture := .exposure (captureExposure s), requester := some l }), .held)

/-- A scheduled exposure save starts (R181). -/
def startScheduled (s : State) : State :=
  withSave s (some { capture := .exposure (captureExposure s), requester := none })

/-- An exposure save expiry (R181). With the counter stopped no expiry is issued and nothing happens (log
entry 5, DESIGN CHOICE, safe). -/
def exposureSaveExpires (s : State) : State :=
  match s.tmb.exposureSaveCounter with
  | none => s
  | some _ =>
    let t := s.withTmb { s.tmb with exposureSaveCounter := some s.cfg.parameters.exposureSavePeriod }
    if t.nvs.save.isSome then t.withNvs { t.nvs with waiting := true } else startScheduled t

/-- The image number of a capture: 0 configuration, 1 exposure (R154). -/
def Capture.image : Capture → Nat
  | .config _ => 0
  | .exposure _ => 1

/-- The image written and its marker set; a good save clears its Lost flag, and a bad one leaves no
image that can be read back (R180, step 3; log entry 11, DEDUCED, unsafe). -/
def writeImage (agrees : Bool) (c : Capture) (x : Store) : Store :=
  match c with
  | .config image =>
    { x with
      configStore := if agrees then some { contents := image, checksum := configChecksum image } else none
      configValid := agrees
      configLost := x.configLost && !agrees }
  | .exposure image =>
    { x with
      exposureStore := if agrees then some { contents := image, checksum := exposureChecksum image } else none
      exposureValid := agrees
      exposureLost := x.exposureLost && !agrees }

/-- Unsaved Edits after a save: cleared by a good configuration save of the current generation (R180). -/
def unsavedAfter (agrees : Bool) (c : Capture) (x : ConfigUnit) : Bool :=
  match c with
  | .config image => x.unsavedEdits && !(agrees && decide (image.generation = x.generation))
  | .exposure _ => x.unsavedEdits

/-- The answer to the link that requested a save (R180, step 3). -/
def saveAnswer (agrees : Bool) (x : Save) (s : State) : State :=
  match x.requester with
  | none => s
  | some l =>
    if agrees then answerHeld s l .ok [] else answerHeld s l .storeFault (enc8 x.capture.image)

/-- The event of a save end (R154, R180, R181). -/
def saveNote (agrees : Bool) (x : Save) : Note :=
  { kind := if agrees then .storeSaved else .storeFault
    subject := x.capture.image
    detail := if x.requester.isSome then 0 else 1 }

/-- A save that waits starts, capturing the accumulators as they then stand (R181). -/
def startWaiting (s : State) : State :=
  if s.nvs.waiting then startScheduled (s.withNvs { s.nvs with waiting := false }) else s

/-- The end of the write and read-back (R180). With no save in flight nothing happens (log entry 5, DESIGN
CHOICE, safe). -/
def saveEnds (agrees : Bool) (s : State) : State :=
  match s.nvs.save with
  | none => s
  | some x =>
    let t := (s.withNvs { writeImage agrees x.capture s.nvs with save := none }).withCfg
      { s.cfg with unsavedEdits := unsavedAfter agrees x.capture s.cfg }
    startWaiting (saveAnswer agrees x (appendEvent t (saveNote agrees x)))

/-! ## Check Store (R182) -/

/-- The validity marker as a named value: valid 0, invalid 1 (R179, R174) (log entry 28, DEDUCED, unsafe). -/
def encValidity (valid : Bool) : List Byte := enc8 (if valid then 0 else 1)

/-- The generation a valid configuration image holds (log entry 25, DEDUCED, unsafe). -/
def imageGeneration (x : Store) : Option Nat :=
  if x.configValid then x.configStore.map fun y => y.contents.generation else none

/-- Check Store (R182). -/
def ownCheckStore : Owner :=
  reads fun s =>
    (.ok,
      encValidity s.nvs.configValid ++ encValidity s.nvs.exposureValid ++ encOption enc16 (imageGeneration s.nvs)
        ++ encOption (fun x : Save => enc8 x.capture.image) s.nvs.save ++ encBool s.nvs.waiting
        ++ encBool s.nvs.configLost ++ encBool s.nvs.exposureLost)

end Sys2Proof.Machine
end

