-- ==== Sys2Proof/Machine/Startup.lean ====
section
/-! DEFINITION. Start-up after power-on reset and after the external reset line (section 11.4, R184, R185). -/

namespace Sys2Proof.Machine

/-- The contents of a stored image whose sum agrees with its checksum, absent for an invalid image (R179). -/
def readConfigImage (x : Option (Stored ConfigImage)) : Option ConfigImage :=
  match x with
  | some y => if configChecksum y.contents = y.checksum then some y.contents else none
  | none => none
def readExposureImage (x : Option (Stored ExposureImage)) : Option ExposureImage :=
  match x with
  | some y => if exposureChecksum y.contents = y.checksum then some y.contents else none
  | none => none

/-- A reset during a save cuts the write, and the image being written can no longer be read (R180). -/
def cutSave (x : Store) : Store :=
  match x.save with
  | none => x
  | some { capture := .config _, .. } => { x with configStore := none }
  | some { capture := .exposure _, .. } => { x with exposureStore := none }

/-- A channel loaded from the image: Retired when so marked, else Acquiring (R29). -/
def ChannelImage.load (x : ChannelImage) : Channel :=
  { Channel.unused with state := if x.retired then .retired else .acquiring, config := some x.config }

/-- The accumulators that a comparison of geometries keeps (R10). -/
def keptExposure (old new : Geometry) (exposure : Table Nat) : Table Nat :=
  Table.restrict (cellKept old new) exposure

/-- The accumulators and the geometry that come into start-up: from retained memory at the external
reset line, else from the exposure image, none when it is invalid (R10). -/
def exposureSource (external : Bool) (s : State) (image : Option ExposureImage) : ExposureImage :=
  if external then { exposure := s.map.exposure, geometry := s.map.retainedGeometry }
  else image.getD { exposure := [], geometry := [] }

/-- The map state after a reset (R66). -/
def startState (valid : Bool) (image : ConfigImage) : MapState :=
  if valid && image.autoStart && !image.coils.isEmpty then .establishing else .stopped

/-- The start-up before its events: reset values, both images read, the configuration and the exposure
loaded, the map state and the down-counters set (R184, steps 1 to 4 and 6; R185). -/
def loaded (external strap1 strap0 : Bool) (s : State) : State :=
  let store := cutSave s.nvs
  let configImage := readConfigImage store.configStore
  let exposureImage := readExposureImage store.exposureStore
  let image := configImage.getD .unconfigured
  let source := exposureSource external s exposureImage
  let geometry := geometryOf image.coils
  let map := startState configImage.isSome image
  { tmb :=
      { uptime := 0
        heaterClock := if external then s.tmb.heaterClock else 0
        clockSet := external && s.tmb.clockSet
        sampleCounter := image.parameters.samplePeriod
        passCounter := if map = .establishing then some image.parameters.passPeriod else none
        sweepCounter := counterOf image.parameters.sweepPeriod
        exposureSaveCounter := counterOf image.parameters.exposureSavePeriod }
    acq := { channels := Table.mapEntries (fun _ x => x.load) image.channels, slots := [], poll := none }
    scn :=
      { sightCount := image.sightCount, sights := image.sights, interleave := image.interleave, sweep := none
        pendingSlot := none, lastSweep := none, sweepSkips := 0, scans := [], biases := [] }
    map :=
      { mapState := map, stopPending := none, passNumber := 0, pass := none, establishCount := 0
        lastCompleted := 0, lastPass := none, overruns := 0, cells := [], peaks := []
        exposure := keptExposure source.geometry geometry source.exposure
        retainedGeometry := geometry
        reads := { a := none, b := none, e := none } }
    alm :=
      { zones := image.zones, records := [], windows := [], figures := [], hotList := [], hotPass := 0
        limitOutput := false }
    frz := { cellCopies := [], peakCopies := [], header := none, freezeNumber := 0, freeze := none }
    evt :=
      { history := [], nextSequence := 0
        links :=
          { a := .reset image.masks.a image.autoClears.a
            b := .reset image.masks.b image.autoClears.b
            e := .reset image.masks.e image.autoClears.e } }
    lnk := { strap1 := strap1, strap0 := strap0, links := { a := .reset, b := .reset, e := .reset } }
    cfg :=
      { coils := image.coils, primaries := image.primaries, alternates := image.alternates
        parameters := image.parameters, rightsA := image.rightsA, rightsB := image.rightsB
        generation := image.generation, unsavedEdits := false, autoStart := image.autoStart }
    nvs :=
      { configStore := store.configStore
        exposureStore := store.exposureStore
        configValid := configImage.isSome
        exposureValid := exposureImage.isSome
        save := none
        waiting := false
        configLost := configImage.isNone
        exposureLost := if external then s.nvs.exposureLost else exposureImage.isNone }
    pending := s.pending }

/-- The events of a start-up: StartUp, then one StoreFault for each invalid image (R184, step 5). -/
def startNotes (external : Bool) (s : State) : List Note :=
  [{ kind := .startUp, subject := 0, detail := if external then 2 else 1 }]
    ++ (if s.nvs.configValid then [] else [{ kind := .storeFault, subject := 0, detail := 2 }])
    ++ (if s.nvs.exposureValid then [] else [{ kind := .storeFault, subject := 1, detail := 2 }])

/-- The whole start-up (R184, R185). -/
def startUp (external strap1 strap0 : Bool) (s : State) : State :=
  appendEvents (loaded external strap1 strap0 s) (startNotes external (loaded external strap1 strap0 s))

end Sys2Proof.Machine
end

