-- ==== Sys2Proof/Machine/Requests.lean ====
section
/-! DEFINITION. The payloads of requests (R171, R174): each command read from its bytes, written to its bytes,
and the lengths that fit it. The order of a form's fields is log entry 13, DEDUCED, unsafe. -/

namespace Sys2Proof.Machine

/-! ## Numbers read from bytes (R174) -/

/-- A one-byte number; two- and four-byte numbers, most significant byte first. -/
def num8 (x : Byte) : Nat := x.toNat
def num16 (x y : Byte) : Nat := x.toNat * 256 + y.toNat
def num32 (x y z w : Byte) : Nat := ((x.toNat * 256 + y.toNat) * 256 + z.toNat) * 256 + w.toNat

/-- A number of `w` bits in two's complement. -/
def signed (w n : Nat) : Int := (BitVec.ofNat w n).toInt

/-- A named value of two: 1 for set, on, yes and 0 for clear, off, no; other bytes name neither. -/
def flagOf (x : Byte) : Option Bool := if x = 1 then some true else if x = 0 then some false else none

/-! ## The commands read from their payloads -/

/-- A command without arguments. -/
def bare (i : Instr) : List Byte → Option Instr
  | [] => some i
  | _ => none

/-- A command with one one-byte number. -/
def oneByte (f : Nat → Instr) : List Byte → Option Instr
  | [x] => some (f (num8 x))
  | _ => none

/-- A command with a two-byte number and a one-byte number. -/
def wordByte (f : Nat → Nat → Instr) : List Byte → Option Instr
  | [x, y, z] => some (f (num16 x y) (num8 z))
  | _ => none

/-- A command with a one-byte number and a two-byte number. -/
def byteWord (f : Nat → Nat → Instr) : List Byte → Option Instr
  | [x, y, z] => some (f (num8 x) (num16 y z))
  | _ => none

/-- A command with one flag. -/
def oneFlag (f : Bool → Instr) : List Byte → Option Instr
  | [x] => (flagOf x).map f
  | _ => none

/-- An edit whose own arguments are one one-byte number. -/
def editByte (f : Nat → Nat → Instr) : List Byte → Option Instr
  | [g, h, x] => some (f (num16 g h) (num8 x))
  | _ => none

/-- An edit whose own arguments are one two-byte number. -/
def editWord (f : Nat → Nat → Instr) : List Byte → Option Instr
  | [g, h, x, y] => some (f (num16 g h) (num16 x y))
  | _ => none

/-- Read Cells: source, coil, start index, count (R148). -/
def parseReadCells (l : Link) (tag : Byte) : List Byte → Option Instr
  | [a, b, c, d, e] => some (.readCells l tag (num8 a) (num8 b) (num16 c d) (num8 e))
  | _ => none

/-- Read Zones: source, first zone, count (R141). -/
def parseReadZones (l : Link) (tag : Byte) : List Byte → Option Instr
  | [a, b, c] => some (.readZones l tag (num8 a) (num8 b) (num8 c))
  | _ => none

/-- Read Channel Statistics: first channel, count, clear option (R41). -/
def parseStatistics (l : Link) (tag : Byte) : List Byte → Option Instr
  | [a, b, c] => (flagOf c).map (.readChannelStatistics l tag (num8 a) (num8 b))
  | _ => none

/-- Read Anchors: by cell 0, by channel 1, then first and count (R99). -/
def parseAnchors (l : Link) (tag : Byte) : List Byte → Option Instr
  | [f, a, b, c] => if f = 0 then some (.readAnchors l tag (.byCell (num16 a b) (num8 c))) else none
  | [f, a, b] => if f = 1 then some (.readAnchors l tag (.byChannel (num8 a) (num8 b))) else none
  | _ => none

/-- Request Sweep: Full 0, Coil 1 followed by k; any other kind alone (R55). -/
def parseSweep (l : Link) (tag : Byte) : List Byte → Option Instr
  | [f] =>
    if f = 0 then some (.requestSweep l tag .full)
    else if f = 1 then none
    else some (.requestSweep l tag (.other (num8 f)))
  | [f, k] => if f = 1 then some (.requestSweep l tag (.coil (num8 k))) else none
  | _ => none

/-- Clear Peaks: Coil 0 followed by k, All 1 (R116). -/
def parseClearPeaks (l : Link) (tag : Byte) : List Byte → Option Instr
  | [f] => if f = 1 then some (.clearPeaks l tag .all) else none
  | [f, k] => if f = 0 then some (.clearPeaks l tag (.coil (num8 k))) else none
  | _ => none

/-- Clear Flags: a set of flags (R158). -/
def parseClearFlags (l : Link) (tag : Byte) : List Byte → Option Instr
  | [x, y] => some (.clearFlags l tag (x ++ y))
  | _ => none

/-- Set Mask: a mask and the Auto Clear option (R160). -/
def parseSetMask (l : Link) (tag : Byte) : List Byte → Option Instr
  | [x, y, z] => (flagOf z).map (.setMask l tag (x ++ y))
  | _ => none

/-- Set Clock: a 32-bit value (R183). -/
def parseSetClock (l : Link) (tag : Byte) : List Byte → Option Instr
  | [x, y, z, w] => some (.setClock l tag (num32 x y z w))
  | _ => none

/-- Define Coil: coil, T, E, design metal temperature, exposure step (R4). -/
def parseDefineCoil (l : Link) (tag : Byte) : List Byte → Option Instr
  | [g, h, k, t, e, d, d', x, x'] =>
    some (.defineCoil l tag (num16 g h) (num8 k) (num8 t) (num8 e) (num16 d d') (num16 x x'))
  | _ => none

/-- Define Channel: channel, then the configuration form 0 or the Remove form 1 (R30). -/
def parseDefineChannel (l : Link) (tag : Byte) : List Byte → Option Instr
  | [g, h, c, f] => if f = 1 then some (.defineChannel l tag (num16 g h) (num8 c) .remove) else none
  | [g, h, c, f, o, o', t, m, m'] =>
    if f = 0 then
      some
        (.defineChannel l tag (num16 g h) (num8 c)
          (.configuration (signed 16 (num16 o o')) (signed 8 (num8 t)) (num16 m m')))
    else none
  | _ => none

/-- Assign Anchor: cell, channel (R90). -/
def parseAssignAnchor (l : Link) (tag : Byte) : List Byte → Option Instr
  | [g, h, x, y, c] => some (.assignAnchor l tag (num16 g h) (num16 x y) (num8 c))
  | _ => none

/-- Assign Alternate: cell, channel, offset (R94). -/
def parseAssignAlternate (l : Link) (tag : Byte) : List Byte → Option Instr
  | [g, h, x, y, c, o, o'] =>
    some (.assignAlternate l tag (num16 g h) (num16 x y) (num8 c) (signed 16 (num16 o o')))
  | _ => none

/-- The `n` entries of a sight list: 0 alone for no cell, 1 and then a cell number (R46, R174). -/
def parseEntries : Nat → List Byte → Option (List (Option Nat))
  | 0, [] => some []
  | n + 1, 0 :: rest => (parseEntries n rest).map (none :: ·)
  | n + 1, 1 :: x :: y :: rest => (parseEntries n rest).map (some (num16 x y) :: ·)
  | _, _ => none

/-- The most entries of a Define Sights list, and the most pairs of a Set Parameters list (R46, R178). -/
def sightListPlaces : Nat := 128
def parameterListPlaces : Nat := 16

/-- Define Sights: Sight Count, first sight, the list (R46). A list that is not of its count byte's entries spells no
argument (log entry 14, DESIGN CHOICE, unsafe). -/
def parseDefineSights (l : Link) (tag : Byte) : List Byte → Option Instr
  | g :: h :: p :: p' :: f :: f' :: n :: rest =>
    if num8 n ≤ sightListPlaces then
      (parseEntries (num8 n) rest).map (.defineSights l tag (num16 g h) (num16 p p') (num16 f f'))
    else none
  | _ => none

/-- Define Zone: the zone, then the fields of R122 in their order (R123, R174). A byte of enabled conditions with
a bit that is no condition spells no argument (log entry 14, DESIGN CHOICE, unsafe). -/
def parseDefineZone (l : Link) (tag : Byte) : List Byte → Option Instr
  | [g, h, n, coil, lt, ht, le, he, en, h1, h1', h2, h2', sp, sp', ra, ra', w, fl, qc, db, db', mode, rep, ack] =>
    if num8 en < 32 then
      some
        (.defineZone l tag (num16 g h) (num8 n)
          { coil := num8 coil, lowTube := num8 lt, highTube := num8 ht, lowElevation := num8 le
            highElevation := num8 he, enabled := BitVec.ofNat 5 (num8 en), highLimit := signed 16 (num16 h1 h1')
            highHighLimit := signed 16 (num16 h2 h2'), spreadLimit := num16 sp sp', rateLimit := num16 ra ra'
            rateWindow := num8 w, qualityFloor := num8 fl, qualityCount := num8 qc, deadband := num16 db db'
            mode := num8 mode, repeatInterval := num8 rep, ackPolicy := num8 ack })
    else none
  | _ => none

/-- The `n` pairs of a Set Parameters list: the number, then the value in four bytes (R174, R178). -/
def parsePairs : Nat → List Byte → Option (List ParameterPair)
  | 0, [] => some []
  | n + 1, k :: x :: y :: z :: w :: rest =>
    (parsePairs n rest).map ({ number := num8 k, value := signed 32 (num32 x y z w) } :: ·)
  | _, _ => none

/-- Set Parameters: a list of 1 to 16 pairs (R178). A list that is not of its count byte's pairs spells no argument
(log entry 14, DESIGN CHOICE, unsafe). -/
def parseSetParameters (l : Link) (tag : Byte) : List Byte → Option Instr
  | g :: h :: n :: rest =>
    if 1 ≤ num8 n ∧ num8 n ≤ parameterListPlaces then
      (parsePairs (num8 n) rest).map (.setParameters l tag (num16 g h))
    else none
  | _ => none

/-- Set Edit Rights: the markers of A and B (R178). -/
def parseSetEditRights (l : Link) (tag : Byte) : List Byte → Option Instr
  | [g, h, x, y] =>
    match flagOf x, flagOf y with
    | some a, some b => some (.setEditRights l tag (num16 g h) a b)
    | _, _ => none
  | _ => none

/-- Set Auto Start: the flag (R178). -/
def parseSetAutoStart (l : Link) (tag : Byte) : List Byte → Option Instr
  | [g, h, x] => (flagOf x).map (.setAutoStart l tag (num16 g h))
  | _ => none

/-! ## The catalogue (R171) -/

/-- The command that a code and a payload spell; none for a code that is not in the catalogue and for a
payload that does not spell the command's arguments. -/
def parseRequest (l : Link) (tag code : Byte) : List Byte → Option Instr :=
  match code.toNat with
  | 0x01 => bare (.readStatus l tag)
  | 0x02 => bare (.readCoilTable l tag)
  | 0x03 => parseReadCells l tag
  | 0x04 => oneByte (.readHotList l tag)
  | 0x05 => parseReadZones l tag
  | 0x06 => bare (.readMapStatus l tag)
  | 0x07 => oneByte (.readChannel l tag)
  | 0x08 => parseStatistics l tag
  | 0x09 => bare (.readModuleStatus l tag)
  | 0x0A => bare (.readSweepStatus l tag)
  | 0x0B => wordByte (.readSights l tag)
  | 0x0C => wordByte (.readScanRecords l tag)
  | 0x0D => parseAnchors l tag
  | 0x0E => oneFlag (.readBias l tag)
  | 0x0F => wordByte (.readExposure l tag)
  | 0x10 => byteWord (.zoneExposureTotal l tag)
  | 0x11 => oneByte (.readEvents l tag)
  | 0x12 => bare (.readParameters l tag)
  | 0x20 => parseSweep l tag
  | 0x21 => bare (.freezeMap l tag)
  | 0x22 => parseClearFlags l tag
  | 0x23 => parseSetMask l tag
  | 0x24 => byteWord (.acknowledge l tag)
  | 0x30 => bare (.startMapping l tag)
  | 0x31 => bare (.stopMapping l tag)
  | 0x32 => bare (.cancelSweep l tag)
  | 0x33 => parseClearPeaks l tag
  | 0x34 => oneByte (.clearExposure l tag)
  | 0x35 => bare (.freezeAndClearPeaks l tag)
  | 0x36 => parseSetClock l tag
  | 0x37 => bare (.saveConfiguration l tag)
  | 0x38 => bare (.saveExposure l tag)
  | 0x39 => bare (.checkStore l tag)
  | 0x40 => parseDefineCoil l tag
  | 0x41 => editByte (.deleteCoil l tag)
  | 0x42 => parseDefineChannel l tag
  | 0x43 => editByte (.retireChannel l tag)
  | 0x44 => editByte (.returnToService l tag)
  | 0x45 => parseAssignAnchor l tag
  | 0x46 => editWord (.releaseAnchor l tag)
  | 0x47 => parseAssignAlternate l tag
  | 0x48 => editWord (.releaseAlternate l tag)
  | 0x49 => parseDefineSights l tag
  | 0x4A => editWord (.setInterleave l tag)
  | 0x4B => parseDefineZone l tag
  | 0x4C => editByte (.deleteZone l tag)
  | 0x4D => parseSetParameters l tag
  | 0x4E => parseSetEditRights l tag
  | 0x4F => parseSetAutoStart l tag
  | _ => fun _ => none

/-- A payload length fits the command: some choice of list lengths and of the form's fields gives exactly
that length (R167, check 4; R174). A command of two forms takes the length of either, whatever its form byte says: a
form byte that is there with the length of the other form, as form 0 of Define Channel with 4 bytes, passes check 4
and is left to the owner (log entry 14, DESIGN CHOICE, unsafe). -/
def lengthFits (code : Byte) (n : Nat) : Bool :=
  match code.toNat with
  | 0x01 | 0x02 | 0x06 | 0x09 | 0x0A | 0x12 | 0x21 | 0x30 | 0x31 | 0x32 | 0x35 | 0x37 | 0x38 | 0x39 =>
    decide (n = 0)
  | 0x04 | 0x07 | 0x0E | 0x11 | 0x34 => decide (n = 1)
  | 0x20 | 0x33 => decide (n = 1 ∨ n = 2)
  | 0x22 => decide (n = 2)
  | 0x05 | 0x08 | 0x0B | 0x0C | 0x0F | 0x10 | 0x23 | 0x24 | 0x41 | 0x43 | 0x44 | 0x4C | 0x4F => decide (n = 3)
  | 0x0D => decide (n = 3 ∨ n = 4)
  | 0x36 | 0x46 | 0x48 | 0x4A | 0x4E => decide (n = 4)
  | 0x03 | 0x45 => decide (n = 5)
  | 0x47 => decide (n = 7)
  | 0x40 => decide (n = 9)
  | 0x42 => decide (n = 4 ∨ n = 9)
  | 0x4B => decide (n = 25)
  | 0x49 =>
    (List.range (sightListPlaces + 1)).any fun k => decide (7 + k ≤ n ∧ n ≤ 7 + 3 * k ∧ (n - (7 + k)) % 2 = 0)
  | 0x4D => (List.range' 1 parameterListPlaces).any fun k => decide (n = 3 + 5 * k)
  | _ => false

/-! ## The same forms written out -/

/-- A request: its link, Tag, Command and payload (R175). -/
structure Request where
  link : Link
  tag : Byte
  code : Byte
  payload : List Byte
  deriving DecidableEq, Repr

/-- The bytes of a two-byte set. -/
def enc16Set (w : BitVec 16) : List Byte := enc16 w.toNat

/-- The kind of a Request Sweep. -/
def encSweepKindArg : SweepKindArg → List Byte
  | .full => enc8 0
  | .coil k => enc8 1 ++ enc8 k
  | .other code => enc8 code

/-- The form of a Clear Peaks. -/
def encClearPeaksForm : ClearPeaksForm → List Byte
  | .coil k => enc8 0 ++ enc8 k
  | .all => enc8 1

/-- The form of a Read Anchors. -/
def encReadAnchorsForm : ReadAnchorsForm → List Byte
  | .byCell first count => enc8 0 ++ enc16 first ++ enc8 count
  | .byChannel first count => enc8 1 ++ enc8 first ++ enc8 count

/-- The form of a Define Channel. -/
def encDefineChannelForm : DefineChannelForm → List Byte
  | .configuration offset trim maxStep => enc8 0 ++ encInt16 offset ++ encInt8 trim ++ enc16 maxStep
  | .remove => enc8 1

/-- The fields of R122, in their order. -/
def encZoneArgs (z : ZoneArgs) : List Byte :=
  enc8 z.coil ++ enc8 z.lowTube ++ enc8 z.highTube ++ enc8 z.lowElevation ++ enc8 z.highElevation
    ++ enc8 z.enabled.toNat ++ encInt16 z.highLimit ++ encInt16 z.highHighLimit ++ enc16 z.spreadLimit
    ++ enc16 z.rateLimit ++ enc8 z.rateWindow ++ enc8 z.qualityFloor ++ enc8 z.qualityCount ++ enc16 z.deadband
    ++ enc8 z.mode ++ enc8 z.repeatInterval ++ enc8 z.ackPolicy

/-- A pair of a Set Parameters list. -/
def encParameterPair (x : ParameterPair) : List Byte := enc8 x.number ++ encInt32 x.value

/-- The request that a link command is; none for the rows that are no commands of R171. -/
def requestOf : Instr → Option Request
  | .powerOnReset _ _ | .externalResetLine _ _ | .clockSecond | .sampleExpiry | .moduleReply _
  | .replyTimeExpiry _ | .reading _ _ _ _ | .headFault _ _ | .replyTimeout | .sweepExpiry | .passExpiry
  | .tubeStep | .handOffEvaluation | .tubeCopy | .freezeCompletion | .saveEnd _ | .exposureSaveExpiry
  | .linkByte _ _ _ _ | .responseSent _ => none
  | .unknownCommandCode l tag code payload => some ⟨l, tag, code, payload⟩
  | .readStatus l tag => some ⟨l, tag, 0x01, []⟩
  | .readCoilTable l tag => some ⟨l, tag, 0x02, []⟩
  | .readCells l tag source coil start count =>
    some ⟨l, tag, 0x03, enc8 source ++ enc8 coil ++ enc16 start ++ enc8 count⟩
  | .readHotList l tag source => some ⟨l, tag, 0x04, enc8 source⟩
  | .readZones l tag source first count => some ⟨l, tag, 0x05, enc8 source ++ enc8 first ++ enc8 count⟩
  | .readMapStatus l tag => some ⟨l, tag, 0x06, []⟩
  | .readChannel l tag channel => some ⟨l, tag, 0x07, enc8 channel⟩
  | .readChannelStatistics l tag first count clear =>
    some ⟨l, tag, 0x08, enc8 first ++ enc8 count ++ encBool clear⟩
  | .readModuleStatus l tag => some ⟨l, tag, 0x09, []⟩
  | .readSweepStatus l tag => some ⟨l, tag, 0x0A, []⟩
  | .readSights l tag first count => some ⟨l, tag, 0x0B, enc16 first ++ enc8 count⟩
  | .readScanRecords l tag first count => some ⟨l, tag, 0x0C, enc16 first ++ enc8 count⟩
  | .readAnchors l tag form => some ⟨l, tag, 0x0D, encReadAnchorsForm form⟩
  | .readBias l tag clear => some ⟨l, tag, 0x0E, encBool clear⟩
  | .readExposure l tag first count => some ⟨l, tag, 0x0F, enc16 first ++ enc8 count⟩
  | .zoneExposureTotal l tag zone resume => some ⟨l, tag, 0x10, enc8 zone ++ enc16 resume⟩
  | .readEvents l tag count => some ⟨l, tag, 0x11, enc8 count⟩
  | .readParameters l tag => some ⟨l, tag, 0x12, []⟩
  | .requestSweep l tag kind => some ⟨l, tag, 0x20, encSweepKindArg kind⟩
  | .freezeMap l tag => some ⟨l, tag, freezeMapCode, []⟩
  | .clearFlags l tag flags => some ⟨l, tag, 0x22, enc16Set flags⟩
  | .setMask l tag mask autoClear => some ⟨l, tag, 0x23, enc16Set mask ++ encBool autoClear⟩
  | .acknowledge l tag zone occurrence => some ⟨l, tag, acknowledgeCode, enc8 zone ++ enc16 occurrence⟩
  | .startMapping l tag => some ⟨l, tag, 0x30, []⟩
  | .stopMapping l tag => some ⟨l, tag, stopMappingCode, []⟩
  | .cancelSweep l tag => some ⟨l, tag, 0x32, []⟩
  | .clearPeaks l tag form => some ⟨l, tag, 0x33, encClearPeaksForm form⟩
  | .clearExposure l tag coil => some ⟨l, tag, 0x34, enc8 coil⟩
  | .freezeAndClearPeaks l tag => some ⟨l, tag, freezeAndClearPeaksCode, []⟩
  | .setClock l tag value => some ⟨l, tag, 0x36, enc32 value⟩
  | .saveConfiguration l tag => some ⟨l, tag, saveConfigurationCode, []⟩
  | .saveExposure l tag => some ⟨l, tag, saveExposureCode, []⟩
  | .checkStore l tag => some ⟨l, tag, 0x39, []⟩
  | .defineCoil l tag expected coil tubes elevations design step =>
    some ⟨l, tag, 0x40, enc16 expected ++ enc8 coil ++ enc8 tubes ++ enc8 elevations ++ enc16 design ++ enc16 step⟩
  | .deleteCoil l tag expected coil => some ⟨l, tag, 0x41, enc16 expected ++ enc8 coil⟩
  | .defineChannel l tag expected channel form =>
    some ⟨l, tag, 0x42, enc16 expected ++ enc8 channel ++ encDefineChannelForm form⟩
  | .retireChannel l tag expected channel => some ⟨l, tag, 0x43, enc16 expected ++ enc8 channel⟩
  | .returnToService l tag expected channel => some ⟨l, tag, 0x44, enc16 expected ++ enc8 channel⟩
  | .assignAnchor l tag expected cell channel =>
    some ⟨l, tag, 0x45, enc16 expected ++ enc16 cell ++ enc8 channel⟩
  | .releaseAnchor l tag expected cell => some ⟨l, tag, 0x46, enc16 expected ++ enc16 cell⟩
  | .assignAlternate l tag expected cell channel offset =>
    some ⟨l, tag, 0x47, enc16 expected ++ enc16 cell ++ enc8 channel ++ encInt16 offset⟩
  | .releaseAlternate l tag expected cell => some ⟨l, tag, 0x48, enc16 expected ++ enc16 cell⟩
  | .defineSights l tag expected sightCount first entries =>
    some
      ⟨l, tag, 0x49,
        enc16 expected ++ enc16 sightCount ++ enc16 first ++ enc8 entries.length
          ++ entries.flatMap (encOption enc16)⟩
  | .setInterleave l tag expected factor => some ⟨l, tag, 0x4A, enc16 expected ++ enc16 factor⟩
  | .defineZone l tag expected zone args => some ⟨l, tag, 0x4B, enc16 expected ++ enc8 zone ++ encZoneArgs args⟩
  | .deleteZone l tag expected zone => some ⟨l, tag, 0x4C, enc16 expected ++ enc8 zone⟩
  | .setParameters l tag expected pairs =>
    some ⟨l, tag, 0x4D, enc16 expected ++ enc8 pairs.length ++ pairs.flatMap encParameterPair⟩
  | .setEditRights l tag expected markerA markerB =>
    some ⟨l, tag, 0x4E, enc16 expected ++ encBool markerA ++ encBool markerB⟩
  | .setAutoStart l tag expected on => some ⟨l, tag, 0x4F, enc16 expected ++ encBool on⟩

/-- A request's frame as a master sends it (R175): Sync, Length, Tag, Command, payload, CRC (R162). -/
def Request.frame (r : Request) : List Byte :=
  let body := enc16 (2 + r.payload.length) ++ [r.tag, r.code] ++ r.payload
  [0xC5] ++ body ++ enc16 (crc16 body).toNat

/-- A response's frame as the transmitter sends it (R162, R175). -/
def Response.frame (r : Response) : List Byte :=
  let body := enc16 (3 + r.payload.length) ++ [r.tag, r.command] ++ enc8 r.result.code ++ r.payload
  [0xC5] ++ body ++ enc16 (crc16 body).toNat

end Sys2Proof.Machine
end

