-- ==== Sys2Proof/Machine/Service.lean ====
section
/-! DEFINITION. The Link Controller's own work: which block answers a request, the service of a good frame, the
three receivers, and the transmitter's end (chapter 10). -/

namespace Sys2Proof.Machine

/-- The owning block's action for a command of R171; none for the rows that are no such command. -/
def ownerOf : Instr → Option Owner
  | .powerOnReset _ _ | .externalResetLine _ _ | .clockSecond | .sampleExpiry | .moduleReply _
  | .replyTimeExpiry _ | .reading _ _ _ _ | .headFault _ _ | .replyTimeout | .sweepExpiry | .passExpiry
  | .tubeStep | .handOffEvaluation | .tubeCopy | .freezeCompletion | .saveEnd _ | .exposureSaveExpiry
  | .linkByte _ _ _ _ | .responseSent _ | .unknownCommandCode _ _ _ _ => none
  | .readStatus l _ => some (ownReadStatus l)
  | .readCoilTable _ _ => some ownReadCoilTable
  | .readCells _ _ source coil start count => some (ownReadCells source coil start count)
  | .readHotList _ _ source => some (ownReadHotList source)
  | .readZones _ _ source first count => some (ownReadZones source first count)
  | .readMapStatus _ _ => some ownReadMapStatus
  | .readChannel _ _ channel => some (ownReadChannel channel)
  | .readChannelStatistics l _ first count clear => some (ownReadChannelStatistics l first count clear)
  | .readModuleStatus _ _ => some ownReadModuleStatus
  | .readSweepStatus _ _ => some ownReadSweepStatus
  | .readSights _ _ first count => some (ownReadSights first count)
  | .readScanRecords _ _ first count => some (ownReadScanRecords first count)
  | .readAnchors _ _ form => some (ownReadAnchors form)
  | .readBias l _ clear => some (ownReadBias l clear)
  | .readExposure l _ first count => some (ownReadExposure l first count)
  | .zoneExposureTotal l _ zone resume => some (ownZoneExposureTotal l zone resume)
  | .readEvents l _ count => some (ownReadEvents l count)
  | .readParameters _ _ => some ownReadParameters
  | .requestSweep _ _ kind => some (ownRequestSweep kind)
  | .freezeMap l _ => some (ownFreezeMap l)
  | .clearFlags l _ flags => some (ownClearFlags l flags)
  | .setMask l _ mask autoClear => some (ownSetMask l mask autoClear)
  | .acknowledge l _ zone occurrence => some (ownAcknowledge l zone occurrence)
  | .startMapping _ _ => some ownStartMapping
  | .stopMapping l _ => some (ownStopMapping l)
  | .cancelSweep _ _ => some ownCancelSweep
  | .clearPeaks _ _ form => some (ownClearPeaks form)
  | .clearExposure _ _ coil => some (ownClearExposure coil)
  | .freezeAndClearPeaks l _ => some (ownFreezeAndClearPeaks l)
  | .setClock l _ value => some (ownSetClock l value)
  | .saveConfiguration l _ => some (ownSaveConfiguration l)
  | .saveExposure l _ => some (ownSaveExposure l)
  | .checkStore _ _ => some ownCheckStore
  | .defineCoil l _ expected coil tubes elevations design step =>
    some (ownDefineCoil l expected coil tubes elevations design step)
  | .deleteCoil l _ expected coil => some (ownDeleteCoil l expected coil)
  | .defineChannel l _ expected channel form => some (ownDefineChannel l expected channel form)
  | .retireChannel l _ expected channel => some (ownRetireChannel l expected channel)
  | .returnToService l _ expected channel => some (ownReturnToService l expected channel)
  | .assignAnchor l _ expected cell channel => some (ownAssignAnchor l expected cell channel)
  | .releaseAnchor l _ expected cell => some (ownReleaseAnchor l expected cell)
  | .assignAlternate l _ expected cell channel offset => some (ownAssignAlternate l expected cell channel offset)
  | .releaseAlternate l _ expected cell => some (ownReleaseAlternate l expected cell)
  | .defineSights l _ expected sightCount first entries => some (ownDefineSights l expected sightCount first entries)
  | .setInterleave l _ expected factor => some (ownSetInterleave l expected factor)
  | .defineZone l _ expected zone args => some (ownDefineZone l expected zone args)
  | .deleteZone l _ expected zone => some (ownDeleteZone l expected zone)
  | .setParameters l _ expected pairs => some (ownSetParameters l expected pairs)
  | .setEditRights l _ expected markerA markerB => some (ownSetEditRights l expected markerA markerB)
  | .setAutoStart l _ expected on => some (ownSetAutoStart l expected on)

/-! ## Good frames (R165, R167) -/

/-- The command is a configuration edit (R173). -/
def isEditCode (code : Byte) : Bool := decide (0x40 ≤ code.toNat ∧ code.toNat ≤ 0x4F)

/-- A payload of a fitting length whose contents spell no arguments, one whose form byte names a form of another
length among them: the owning block refuses it BAD_ARGUMENT, an edit after its Expected Generation check and with the
generation in its payload (R167, R173, R177; log entry 14, DESIGN CHOICE, unsafe). -/
def malformed (l : Link) (code : Byte) (payload : List Byte) : Owner :=
  if isEditCode code then
    edit l (num16 (byteAt payload 0) (byteAt payload 1)) (fun _ => some .badArgument) (fun _ => false) id fun _ => []
  else fun s => refuse s .badArgument

/-- The owner's action for the payload of a request; none when its length does not fit the command. -/
def frameOwner (l : Link) (tag code : Byte) (payload : List Byte) : Option Owner :=
  match parseRequest l tag code payload with
  | some i => ownerOf i
  | none => if lengthFits code payload.length then some (malformed l code payload) else none

/-- A good frame handed to the request service (R164, R165). -/
def serveFrame (l : Link) (tag code : Byte) (payload : List Byte) (s : State) : State :=
  serve l tag code (frameOwner l tag code payload) s

/-! ## Receivers (R163, R164) -/

/-- The Sync byte (R175). -/
def syncByte : Byte := 0xC5

/-- The least and greatest Length of a request (R164, R175). -/
def lengthLow : Nat := 2
def lengthHigh : Nat := 482

/-- A byte handled as Hunting does (R163). -/
def huntByte (byte : Byte) (broken : Bool) : Receiver :=
  if byte = syncByte ∧ broken = false then .receiving [] else .hunting

/-- `s` with link `l`'s receiver replaced. -/
def setReceiver (l : Link) (r : Receiver) (s : State) : State := onLink s l fun x => { x with receiver := r }

/-- A frame counted as an error, with the receiver as given (R163, R164). -/
def dropFrame (l : Link) (r : Receiver) (s : State) : State :=
  onLink s l fun x => { x.countError with receiver := r }

/-- The Length of a frame whose bytes from Length onward are `buffer`. -/
def frameLength (buffer : List Byte) : Nat := num16 (byteAt buffer 0) (byteAt buffer 1)

/-- The CRC of a whole frame agrees: over all bytes but the last two, against the last two (R162, R164). -/
def crcAgrees (buffer : List Byte) : Bool :=
  let n := frameLength buffer
  decide (crc16 (buffer.take (n + 2)) = byteAt buffer (n + 2) ++ byteAt buffer (n + 3))

/-- A whole frame judged at its last CRC byte (R164). -/
def judgeFrame (l : Link) (buffer : List Byte) (s : State) : State :=
  if crcAgrees buffer then
    serveFrame l (byteAt buffer 2) (byteAt buffer 3) ((buffer.drop 4).take (frameLength buffer - 2))
      (setReceiver l .hunting s)
  else dropFrame l .hunting s

/-- A good byte added to the buffer of a frame in progress (R163), and the frame judged at the second
Length byte and at the last CRC byte (R164). -/
def addByte (l : Link) (buffer : List Byte) (s : State) : State :=
  let n := frameLength buffer
  if buffer.length < 2 then setReceiver l (.receiving buffer) s
  else if n < lengthLow ∨ lengthHigh < n then dropFrame l .discarding s
  else if buffer.length < n + 4 then setReceiver l (.receiving buffer) s
  else judgeFrame l buffer s

/-- A byte received on link `l` (R163); `late` after a gap of more than 3 ms. -/
def receiveByte (l : Link) (byte : Byte) (broken late : Bool) (s : State) : State :=
  match (s.lnk.links.get l).receiver with
  | .hunting => setReceiver l (huntByte byte broken) s
  | .receiving buffer =>
    if late then setReceiver l (huntByte byte broken) s
    else if broken then dropFrame l .discarding s
    else addByte l (buffer ++ [byte]) s
  | .discarding => if late then setReceiver l (huntByte byte broken) s else s

/-! ## The transmitter (R166) -/

/-- The oldest queued response removed when its last CRC byte has been sent (R166). With no response queued none is
sent and nothing happens (log entry 5, DESIGN CHOICE, safe). -/
def responseLeaves (l : Link) (s : State) : State := onLink s l fun x => { x with queue := x.queue.drop 1 }

end Sys2Proof.Machine
end

