-- ==== Sys2Proof/Machine/EditCommands.lean ====
section
/-! DEFINITION. The meanings of the configuration edits 0x40 to 0x4F (R171, R173, R177). -/

namespace Sys2Proof.Machine

/-- DEFINE_COIL (R4, R5; R167). -/
def execDefineCoil (link : Link) (tag : Byte) (expected coil tubes elevations design step : Nat)
    (s : State) : Host.Outcome State Fault Refusal :=
  .next (serve link tag 0x40 (some (ownDefineCoil link expected coil tubes elevations design step)) s)

/-- DELETE_COIL (R6; R167). -/
def execDeleteCoil (link : Link) (tag : Byte) (expected coil : Nat)
    (s : State) : Host.Outcome State Fault Refusal :=
  .next (serve link tag 0x41 (some (ownDeleteCoil link expected coil)) s)

/-- DEFINE_CHANNEL (R30; R167). -/
def execDefineChannel (link : Link) (tag : Byte) (expected channel : Nat) (form : DefineChannelForm)
    (s : State) : Host.Outcome State Fault Refusal :=
  .next (serve link tag 0x42 (some (ownDefineChannel link expected channel form)) s)

/-- RETIRE_CHANNEL (R37; R167). -/
def execRetireChannel (link : Link) (tag : Byte) (expected channel : Nat)
    (s : State) : Host.Outcome State Fault Refusal :=
  .next (serve link tag 0x43 (some (ownRetireChannel link expected channel)) s)

/-- RETURN_TO_SERVICE (R38; R167). -/
def execReturnToService (link : Link) (tag : Byte) (expected channel : Nat)
    (s : State) : Host.Outcome State Fault Refusal :=
  .next (serve link tag 0x44 (some (ownReturnToService link expected channel)) s)

/-- ASSIGN_ANCHOR (R90, R91; R167). -/
def execAssignAnchor (link : Link) (tag : Byte) (expected cell channel : Nat)
    (s : State) : Host.Outcome State Fault Refusal :=
  .next (serve link tag 0x45 (some (ownAssignAnchor link expected cell channel)) s)

/-- RELEASE_ANCHOR (R92; R167). -/
def execReleaseAnchor (link : Link) (tag : Byte) (expected cell : Nat)
    (s : State) : Host.Outcome State Fault Refusal :=
  .next (serve link tag 0x46 (some (ownReleaseAnchor link expected cell)) s)

/-- ASSIGN_ALTERNATE (R94, R95; R167). -/
def execAssignAlternate (link : Link) (tag : Byte) (expected cell channel : Nat) (offset : Int)
    (s : State) : Host.Outcome State Fault Refusal :=
  .next (serve link tag 0x47 (some (ownAssignAlternate link expected cell channel offset)) s)

/-- RELEASE_ALTERNATE (R96; R167). -/
def execReleaseAlternate (link : Link) (tag : Byte) (expected cell : Nat)
    (s : State) : Host.Outcome State Fault Refusal :=
  .next (serve link tag 0x48 (some (ownReleaseAlternate link expected cell)) s)

/-- DEFINE_SIGHTS (R46; R167). -/
def execDefineSights (link : Link) (tag : Byte) (expected sightCount first : Nat) (entries : List (Option Nat))
    (s : State) : Host.Outcome State Fault Refusal :=
  .next (serve link tag 0x49 (some (ownDefineSights link expected sightCount first entries)) s)

/-- SET_INTERLEAVE (R47; R167). -/
def execSetInterleave (link : Link) (tag : Byte) (expected factor : Nat)
    (s : State) : Host.Outcome State Fault Refusal :=
  .next (serve link tag 0x4A (some (ownSetInterleave link expected factor)) s)

/-- DEFINE_ZONE (R123, R124; R167). -/
def execDefineZone (link : Link) (tag : Byte) (expected zone : Nat) (args : ZoneArgs)
    (s : State) : Host.Outcome State Fault Refusal :=
  .next (serve link tag 0x4B (some (ownDefineZone link expected zone args)) s)

/-- DELETE_ZONE (R124; R167). -/
def execDeleteZone (link : Link) (tag : Byte) (expected zone : Nat)
    (s : State) : Host.Outcome State Fault Refusal :=
  .next (serve link tag 0x4C (some (ownDeleteZone link expected zone)) s)

/-- SET_PARAMETERS (R178; R167). -/
def execSetParameters (link : Link) (tag : Byte) (expected : Nat) (pairs : List ParameterPair)
    (s : State) : Host.Outcome State Fault Refusal :=
  .next (serve link tag 0x4D (some (ownSetParameters link expected pairs)) s)

/-- SET_EDIT_RIGHTS (R168, R178; R167). -/
def execSetEditRights (link : Link) (tag : Byte) (expected : Nat) (markerA markerB : Bool)
    (s : State) : Host.Outcome State Fault Refusal :=
  .next (serve link tag 0x4E (some (ownSetEditRights link expected markerA markerB)) s)

/-- SET_AUTO_START (R178; R167). -/
def execSetAutoStart (link : Link) (tag : Byte) (expected : Nat) (on : Bool)
    (s : State) : Host.Outcome State Fault Refusal :=
  .next (serve link tag 0x4F (some (ownSetAutoStart link expected on)) s)

end Sys2Proof.Machine
end

