-- ==== Sys2Proof/Machine/FieldCommands.lean ====
section
/-! DEFINITION. The meanings of the rows that come from the resets, the Timebase, the sensor bus, the scanner link and
the line of a link. -/

namespace Sys2Proof.Machine

/-- POWER_ON_RESET (R184). -/
def execPowerOnReset (strap1 strap0 : Bool) (s : State) : Host.Outcome State Fault Refusal :=
  .next (startUp false strap1 strap0 s)

/-- EXTERNAL_RESET_LINE (R185). -/
def execExternalResetLine (strap1 strap0 : Bool) (s : State) : Host.Outcome State Fault Refusal :=
  .next (startUp true strap1 strap0 s)

/-- CLOCK_SECOND (R183). -/
def execClockSecond (s : State) : Host.Outcome State Fault Refusal :=
  .next (secondPasses s)

/-- SAMPLE_EXPIRY (R21, R22). -/
def execSampleExpiry (s : State) : Host.Outcome State Fault Refusal :=
  .next (sampleExpires s)

/-- MODULE_REPLY (R24 to R36). -/
def execModuleReply (bytes : List Byte) (s : State) : Host.Outcome State Fault Refusal :=
  .next (receiveReply bytes s)

/-- REPLY_TIME_EXPIRY (R23, R24). -/
def execReplyTimeExpiry (bytesCame : Bool) (s : State) : Host.Outcome State Fault Refusal :=
  .next (replyTimeEnds bytesCame s)

/-- READING (R48 to R54, R101 to R103). -/
def execReading (intact : Bool) (sight : Nat) (temperature : Int) (signal : Nat)
    (s : State) : Host.Outcome State Fault Refusal :=
  .next (readingArrives intact sight temperature signal s)

/-- HEAD_FAULT (R48 to R50). -/
def execHeadFault (intact : Bool) (code : Nat) (s : State) : Host.Outcome State Fault Refusal :=
  .next (headFaultArrives intact code s)

/-- REPLY_TIMEOUT (R49, R50). -/
def execReplyTimeout (s : State) : Host.Outcome State Fault Refusal :=
  .next (replyTimeoutEnds s)

/-- SWEEP_EXPIRY (R57). -/
def execSweepExpiry (s : State) : Host.Outcome State Fault Refusal :=
  .next (sweepExpires s)

/-- PASS_EXPIRY (R70, R71). -/
def execPassExpiry (s : State) : Host.Outcome State Fault Refusal :=
  .next (passExpires s)

/-- TUBE_STEP (R73 to R85). -/
def execTubeStep (s : State) : Host.Outcome State Fault Refusal :=
  .next (tubeSteps s)

/-- HAND_OFF_EVALUATION (R86, R125 to R140). -/
def execHandOffEvaluation (s : State) : Host.Outcome State Fault Refusal :=
  .next (handsOff s)

/-- TUBE_COPY (R144, R145). -/
def execTubeCopy (s : State) : Host.Outcome State Fault Refusal :=
  .next (tubeCopies s)

/-- FREEZE_COMPLETION (R146). -/
def execFreezeCompletion (s : State) : Host.Outcome State Fault Refusal :=
  .next (freezeCompletes s)

/-- SAVE_END (R180, R181). -/
def execSaveEnd (agrees : Bool) (s : State) : Host.Outcome State Fault Refusal :=
  .next (saveEnds agrees s)

/-- EXPOSURE_SAVE_EXPIRY (R181). -/
def execExposureSaveExpiry (s : State) : Host.Outcome State Fault Refusal :=
  .next (exposureSaveExpires s)

/-- LINK_BYTE (R163, R164), and the service of a frame it completes. -/
def execLinkByte (link : Link) (byte : Byte) (broken late : Bool)
    (s : State) : Host.Outcome State Fault Refusal :=
  .next (receiveByte link byte broken late s)

/-- RESPONSE_SENT (R166). -/
def execResponseSent (link : Link) (s : State) : Host.Outcome State Fault Refusal :=
  .next (responseLeaves link s)

/-- UNKNOWN_COMMAND_CODE (R167, R171). -/
def execUnknownCommandCode (link : Link) (tag code : Byte) (payload : List Byte)
    (s : State) : Host.Outcome State Fault Refusal :=
  .next (serveFrame link tag code payload s)

end Sys2Proof.Machine
end

