-- ==== Sys2Proof/Machine/OpenCommands.lean ====
section
/-! DEFINITION. The meanings of the open commands 0x20 to 0x24 and the operating commands 0x30 to 0x39 (R171). -/

namespace Sys2Proof.Machine

/-- REQUEST_SWEEP (R55; R167). -/
def execRequestSweep (link : Link) (tag : Byte) (kind : SweepKindArg)
    (s : State) : Host.Outcome State Fault Refusal :=
  .next (serve link tag 0x20 (some (ownRequestSweep kind)) s)

/-- FREEZE_MAP (R143; R167). -/
def execFreezeMap (link : Link) (tag : Byte) (s : State) : Host.Outcome State Fault Refusal :=
  .next (serve link tag freezeMapCode (some (ownFreezeMap link)) s)

/-- CLEAR_FLAGS (R158; R167). -/
def execClearFlags (link : Link) (tag : Byte) (flags : BitVec 16)
    (s : State) : Host.Outcome State Fault Refusal :=
  .next (serve link tag 0x22 (some (ownClearFlags link flags)) s)

/-- SET_MASK (R160; R167). -/
def execSetMask (link : Link) (tag : Byte) (mask : BitVec 16) (autoClear : Bool)
    (s : State) : Host.Outcome State Fault Refusal :=
  .next (serve link tag 0x23 (some (ownSetMask link mask autoClear)) s)

/-- ACKNOWLEDGE (R133; R167). -/
def execAcknowledge (link : Link) (tag : Byte) (zone occurrence : Nat)
    (s : State) : Host.Outcome State Fault Refusal :=
  .next (serve link tag acknowledgeCode (some (ownAcknowledge link zone occurrence)) s)

/-- START_MAPPING (R67; R167). -/
def execStartMapping (link : Link) (tag : Byte) (s : State) : Host.Outcome State Fault Refusal :=
  .next (serve link tag 0x30 (some ownStartMapping) s)

/-- STOP_MAPPING (R68; R167). -/
def execStopMapping (link : Link) (tag : Byte) (s : State) : Host.Outcome State Fault Refusal :=
  .next (serve link tag stopMappingCode (some (ownStopMapping link)) s)

/-- CANCEL_SWEEP (R59; R167). -/
def execCancelSweep (link : Link) (tag : Byte) (s : State) : Host.Outcome State Fault Refusal :=
  .next (serve link tag 0x32 (some ownCancelSweep) s)

/-- CLEAR_PEAKS (R116; R167). -/
def execClearPeaks (link : Link) (tag : Byte) (form : ClearPeaksForm)
    (s : State) : Host.Outcome State Fault Refusal :=
  .next (serve link tag 0x33 (some (ownClearPeaks form)) s)

/-- CLEAR_EXPOSURE (R112; R167). -/
def execClearExposure (link : Link) (tag : Byte) (coil : Nat)
    (s : State) : Host.Outcome State Fault Refusal :=
  .next (serve link tag 0x34 (some (ownClearExposure coil)) s)

/-- FREEZE_AND_CLEAR_PEAKS (R143; R167). -/
def execFreezeAndClearPeaks (link : Link) (tag : Byte) (s : State) : Host.Outcome State Fault Refusal :=
  .next (serve link tag freezeAndClearPeaksCode (some (ownFreezeAndClearPeaks link)) s)

/-- SET_CLOCK (R183; R167). -/
def execSetClock (link : Link) (tag : Byte) (value : Nat) (s : State) : Host.Outcome State Fault Refusal :=
  .next (serve link tag 0x36 (some (ownSetClock link value)) s)

/-- SAVE_CONFIGURATION (R180; R167). -/
def execSaveConfiguration (link : Link) (tag : Byte) (s : State) : Host.Outcome State Fault Refusal :=
  .next (serve link tag saveConfigurationCode (some (ownSaveConfiguration link)) s)

/-- SAVE_EXPOSURE (R180; R167). -/
def execSaveExposure (link : Link) (tag : Byte) (s : State) : Host.Outcome State Fault Refusal :=
  .next (serve link tag saveExposureCode (some (ownSaveExposure link)) s)

/-- CHECK_STORE (R182; R167). -/
def execCheckStore (link : Link) (tag : Byte) (s : State) : Host.Outcome State Fault Refusal :=
  .next (serve link tag 0x39 (some ownCheckStore) s)

end Sys2Proof.Machine
end

