-- ==== Sys2Proof/Machine/ReadCommands.lean ====
section
/-! DEFINITION. The meanings of the read commands 0x01 to 0x12 (R171). -/

namespace Sys2Proof.Machine

/-- READ_STATUS (R170; R167). -/
def execReadStatus (link : Link) (tag : Byte) (s : State) : Host.Outcome State Fault Refusal :=
  .next (serve link tag 0x01 (some (ownReadStatus link)) s)

/-- READ_COIL_TABLE (R11; R167). -/
def execReadCoilTable (link : Link) (tag : Byte) (s : State) : Host.Outcome State Fault Refusal :=
  .next (serve link tag 0x02 (some ownReadCoilTable) s)

/-- READ_CELLS (R148, R149; R167). -/
def execReadCells (link : Link) (tag : Byte) (source coil start count : Nat)
    (s : State) : Host.Outcome State Fault Refusal :=
  .next (serve link tag 0x03 (some (ownReadCells source coil start count)) s)

/-- READ_HOT_LIST (R141, R150; R167). -/
def execReadHotList (link : Link) (tag : Byte) (source : Nat)
    (s : State) : Host.Outcome State Fault Refusal :=
  .next (serve link tag 0x04 (some (ownReadHotList source)) s)

/-- READ_ZONES (R141, R150; R167). -/
def execReadZones (link : Link) (tag : Byte) (source first count : Nat)
    (s : State) : Host.Outcome State Fault Refusal :=
  .next (serve link tag 0x05 (some (ownReadZones source first count)) s)

/-- READ_MAP_STATUS (R88; R167). -/
def execReadMapStatus (link : Link) (tag : Byte) (s : State) : Host.Outcome State Fault Refusal :=
  .next (serve link tag 0x06 (some ownReadMapStatus) s)

/-- READ_CHANNEL (R42; R167). -/
def execReadChannel (link : Link) (tag : Byte) (channel : Nat)
    (s : State) : Host.Outcome State Fault Refusal :=
  .next (serve link tag 0x07 (some (ownReadChannel channel)) s)

/-- READ_CHANNEL_STATISTICS (R41; R167). -/
def execReadChannelStatistics (link : Link) (tag : Byte) (first count : Nat) (clear : Bool)
    (s : State) : Host.Outcome State Fault Refusal :=
  .next (serve link tag 0x08 (some (ownReadChannelStatistics link first count clear)) s)

/-- READ_MODULE_STATUS (R42; R167). -/
def execReadModuleStatus (link : Link) (tag : Byte) (s : State) : Host.Outcome State Fault Refusal :=
  .next (serve link tag 0x09 (some ownReadModuleStatus) s)

/-- READ_SWEEP_STATUS (R63; R167). -/
def execReadSweepStatus (link : Link) (tag : Byte) (s : State) : Host.Outcome State Fault Refusal :=
  .next (serve link tag 0x0A (some ownReadSweepStatus) s)

/-- READ_SIGHTS (R64; R167). -/
def execReadSights (link : Link) (tag : Byte) (first count : Nat)
    (s : State) : Host.Outcome State Fault Refusal :=
  .next (serve link tag 0x0B (some (ownReadSights first count)) s)

/-- READ_SCAN_RECORDS (R64; R167). -/
def execReadScanRecords (link : Link) (tag : Byte) (first count : Nat)
    (s : State) : Host.Outcome State Fault Refusal :=
  .next (serve link tag 0x0C (some (ownReadScanRecords first count)) s)

/-- READ_ANCHORS (R99; R167). -/
def execReadAnchors (link : Link) (tag : Byte) (form : ReadAnchorsForm)
    (s : State) : Host.Outcome State Fault Refusal :=
  .next (serve link tag 0x0D (some (ownReadAnchors form)) s)

/-- READ_BIAS (R105; R167). -/
def execReadBias (link : Link) (tag : Byte) (clear : Bool) (s : State) : Host.Outcome State Fault Refusal :=
  .next (serve link tag 0x0E (some (ownReadBias link clear)) s)

/-- READ_EXPOSURE (R118; R167). -/
def execReadExposure (link : Link) (tag : Byte) (first count : Nat)
    (s : State) : Host.Outcome State Fault Refusal :=
  .next (serve link tag 0x0F (some (ownReadExposure link first count)) s)

/-- ZONE_EXPOSURE_TOTAL (R119, R120; R167). -/
def execZoneExposureTotal (link : Link) (tag : Byte) (zone resume : Nat)
    (s : State) : Host.Outcome State Fault Refusal :=
  .next (serve link tag 0x10 (some (ownZoneExposureTotal link zone resume)) s)

/-- READ_EVENTS (R155, R156; R167). -/
def execReadEvents (link : Link) (tag : Byte) (count : Nat) (s : State) : Host.Outcome State Fault Refusal :=
  .next (serve link tag 0x11 (some (ownReadEvents link count)) s)

/-- READ_PARAMETERS (R178; R167). -/
def execReadParameters (link : Link) (tag : Byte) (s : State) : Host.Outcome State Fault Refusal :=
  .next (serve link tag 0x12 (some ownReadParameters) s)

end Sys2Proof.Machine
end

