-- ==== Sys2Proof/Machine/Dispatch.lean ====
section
/-! DEFINITION. One arm per command of the table, each one call of its meaning. -/

namespace Sys2Proof.Machine

def exec (i : Instr) (s : State) : Host.Outcome State Fault Refusal :=
  match i with
  | .powerOnReset strap1 strap0 => Sys2Proof.Machine.execPowerOnReset strap1 strap0 s
  | .externalResetLine strap1 strap0 => Sys2Proof.Machine.execExternalResetLine strap1 strap0 s
  | .clockSecond => Sys2Proof.Machine.execClockSecond s
  | .sampleExpiry => Sys2Proof.Machine.execSampleExpiry s
  | .moduleReply bytes => Sys2Proof.Machine.execModuleReply bytes s
  | .replyTimeExpiry bytesCame => Sys2Proof.Machine.execReplyTimeExpiry bytesCame s
  | .reading intact sight temperature signal => Sys2Proof.Machine.execReading intact sight temperature signal s
  | .headFault intact code => Sys2Proof.Machine.execHeadFault intact code s
  | .replyTimeout => Sys2Proof.Machine.execReplyTimeout s
  | .sweepExpiry => Sys2Proof.Machine.execSweepExpiry s
  | .passExpiry => Sys2Proof.Machine.execPassExpiry s
  | .tubeStep => Sys2Proof.Machine.execTubeStep s
  | .handOffEvaluation => Sys2Proof.Machine.execHandOffEvaluation s
  | .tubeCopy => Sys2Proof.Machine.execTubeCopy s
  | .freezeCompletion => Sys2Proof.Machine.execFreezeCompletion s
  | .saveEnd agrees => Sys2Proof.Machine.execSaveEnd agrees s
  | .exposureSaveExpiry => Sys2Proof.Machine.execExposureSaveExpiry s
  | .linkByte link byte broken late => Sys2Proof.Machine.execLinkByte link byte broken late s
  | .responseSent link => Sys2Proof.Machine.execResponseSent link s
  | .unknownCommandCode link tag code payload => Sys2Proof.Machine.execUnknownCommandCode link tag code payload s
  | .readStatus link tag => Sys2Proof.Machine.execReadStatus link tag s
  | .readCoilTable link tag => Sys2Proof.Machine.execReadCoilTable link tag s
  | .readCells link tag source coil start count => Sys2Proof.Machine.execReadCells link tag source coil start count s
  | .readHotList link tag source => Sys2Proof.Machine.execReadHotList link tag source s
  | .readZones link tag source first count => Sys2Proof.Machine.execReadZones link tag source first count s
  | .readMapStatus link tag => Sys2Proof.Machine.execReadMapStatus link tag s
  | .readChannel link tag channel => Sys2Proof.Machine.execReadChannel link tag channel s
  | .readChannelStatistics link tag first count clear => Sys2Proof.Machine.execReadChannelStatistics link tag first count clear s
  | .readModuleStatus link tag => Sys2Proof.Machine.execReadModuleStatus link tag s
  | .readSweepStatus link tag => Sys2Proof.Machine.execReadSweepStatus link tag s
  | .readSights link tag first count => Sys2Proof.Machine.execReadSights link tag first count s
  | .readScanRecords link tag first count => Sys2Proof.Machine.execReadScanRecords link tag first count s
  | .readAnchors link tag form => Sys2Proof.Machine.execReadAnchors link tag form s
  | .readBias link tag clear => Sys2Proof.Machine.execReadBias link tag clear s
  | .readExposure link tag first count => Sys2Proof.Machine.execReadExposure link tag first count s
  | .zoneExposureTotal link tag zone resume => Sys2Proof.Machine.execZoneExposureTotal link tag zone resume s
  | .readEvents link tag count => Sys2Proof.Machine.execReadEvents link tag count s
  | .readParameters link tag => Sys2Proof.Machine.execReadParameters link tag s
  | .requestSweep link tag kind => Sys2Proof.Machine.execRequestSweep link tag kind s
  | .freezeMap link tag => Sys2Proof.Machine.execFreezeMap link tag s
  | .clearFlags link tag flags => Sys2Proof.Machine.execClearFlags link tag flags s
  | .setMask link tag mask autoClear => Sys2Proof.Machine.execSetMask link tag mask autoClear s
  | .acknowledge link tag zone occurrence => Sys2Proof.Machine.execAcknowledge link tag zone occurrence s
  | .startMapping link tag => Sys2Proof.Machine.execStartMapping link tag s
  | .stopMapping link tag => Sys2Proof.Machine.execStopMapping link tag s
  | .cancelSweep link tag => Sys2Proof.Machine.execCancelSweep link tag s
  | .clearPeaks link tag form => Sys2Proof.Machine.execClearPeaks link tag form s
  | .clearExposure link tag coil => Sys2Proof.Machine.execClearExposure link tag coil s
  | .freezeAndClearPeaks link tag => Sys2Proof.Machine.execFreezeAndClearPeaks link tag s
  | .setClock link tag value => Sys2Proof.Machine.execSetClock link tag value s
  | .saveConfiguration link tag => Sys2Proof.Machine.execSaveConfiguration link tag s
  | .saveExposure link tag => Sys2Proof.Machine.execSaveExposure link tag s
  | .checkStore link tag => Sys2Proof.Machine.execCheckStore link tag s
  | .defineCoil link tag expected coil tubes elevations design step => Sys2Proof.Machine.execDefineCoil link tag expected coil tubes elevations design step s
  | .deleteCoil link tag expected coil => Sys2Proof.Machine.execDeleteCoil link tag expected coil s
  | .defineChannel link tag expected channel form => Sys2Proof.Machine.execDefineChannel link tag expected channel form s
  | .retireChannel link tag expected channel => Sys2Proof.Machine.execRetireChannel link tag expected channel s
  | .returnToService link tag expected channel => Sys2Proof.Machine.execReturnToService link tag expected channel s
  | .assignAnchor link tag expected cell channel => Sys2Proof.Machine.execAssignAnchor link tag expected cell channel s
  | .releaseAnchor link tag expected cell => Sys2Proof.Machine.execReleaseAnchor link tag expected cell s
  | .assignAlternate link tag expected cell channel offset => Sys2Proof.Machine.execAssignAlternate link tag expected cell channel offset s
  | .releaseAlternate link tag expected cell => Sys2Proof.Machine.execReleaseAlternate link tag expected cell s
  | .defineSights link tag expected sightCount first entries => Sys2Proof.Machine.execDefineSights link tag expected sightCount first entries s
  | .setInterleave link tag expected factor => Sys2Proof.Machine.execSetInterleave link tag expected factor s
  | .defineZone link tag expected zone args => Sys2Proof.Machine.execDefineZone link tag expected zone args s
  | .deleteZone link tag expected zone => Sys2Proof.Machine.execDeleteZone link tag expected zone s
  | .setParameters link tag expected pairs => Sys2Proof.Machine.execSetParameters link tag expected pairs s
  | .setEditRights link tag expected markerA markerB => Sys2Proof.Machine.execSetEditRights link tag expected markerA markerB s
  | .setAutoStart link tag expected on => Sys2Proof.Machine.execSetAutoStart link tag expected on s

end Sys2Proof.Machine
end

