-- ==== Sys2Proof/Machine/Step.lean ====
section
/-! DEFINITION. One step: the command at the front of the queue, on the state with the queue's rest; while no command
waits, the next tube of each read of exposure in progress. -/

namespace Sys2Proof.Machine

/-- One step. On an empty queue each read of exposure in progress takes its next tube, and with none the controller
idles (log entries 3, safe, and 32, unsafe, DESIGN CHOICE). -/
def step (s : State) : Host.Outcome State Fault Refusal :=
  match s.pending with
  | [] => .next (takeTubes s)
  | c :: rest => exec c (s.withPending rest)

/-- `s` with the command that the word spells at the front of its queue; `s` where the word spells none. -/
def State.withFetchWord (s : State) (nbits w : Nat) : State :=
  match decodeTableWord nbits w with
  | some c => s.withPending (c :: s.pending)
  | none => s

end Sys2Proof.Machine
end

