-- ==== Sys2Proof/Safety.lean ====
section
/-! DEFINITION. What the manual says stands at all times: the invariants that every step keeps; and the words that
the statements share, the bytes of the replies to reads among them. -/

namespace Sys2Proof.Machine

/-! ## Events and links -/

/-- With the sequence counter at n, the history holds the entries numbered from the larger of 0 and
n − 128 up to n − 1, oldest first (R151), and the counter never passes its maximum (R153). -/
def HistoryConsecutive (s : State) : Prop :=
  s.evt.nextSequence ≤ max32 ∧
    s.evt.history.map Event.sequence
      = List.range' (s.evt.nextSequence - historyPlaces) (min s.evt.nextSequence historyPlaces)

/-- Each link's attention line is asserted exactly while a flag of that link is set and unmasked (R160). -/
def AttentionFollowsFlags (s : State) : Prop :=
  ∀ l, (s.evt.links.get l).attention = (s.evt.links.get l).called

/-- A link's receive buffer holds an incomplete frame whose Length, once complete, is one that is allowed
(R163, R164). -/
def Receiver.Incomplete : Receiver → Prop
  | .hunting | .discarding => True
  | .receiving buffer =>
    buffer.length < 2 ∨
      (lengthLow ≤ frameLength buffer ∧ frameLength buffer ≤ lengthHigh ∧ buffer.length < frameLength buffer + 4)

/-- What a link holds stays in bounds: its response queue of 8 places (R166), with one place kept for a
request in service, its receive buffer (R163), and its Frame Error counter (R164). -/
def LinkState.Bounded (x : LinkState) : Prop :=
  x.queue.length ≤ (if x.inService.isSome then 7 else 8) ∧ x.receiver.Incomplete ∧ x.frameErrors ≤ max16

/-- Every link stays in bounds. -/
def LinksBounded (s : State) : Prop := ∀ l, (s.lnk.links.get l).Bounded

/-- The hot tube lists that a reply may carry, live and frozen, have at most 16 entries (R139, R142). -/
def HotListsShort (s : State) : Prop :=
  s.alm.hotList.length ≤ hotPlaces ∧ ∀ h, s.frz.header = some h → h.hotList.length ≤ hotPlaces

/-- A Read Exposure in progress takes at most 32 cells, of at most 8 coils (R1, R118). -/
def ExposureRead.Fits (x : ExposureRead) : Prop :=
  match x.reply with
  | .cells _ coils => x.taken.length + x.left.flatten.length ≤ 32 ∧ coils.length ≤ 8
  | .total _ _ _ _ => True

/-- Every response that waits has a payload of at most 480 bytes, and so will every one that a read in progress
brings (R175). -/
def ResponsesFit (s : State) : Prop :=
  HotListsShort s ∧ (∀ l x, s.map.reads.get l = some x → x.Fits) ∧
    ∀ l, ∀ r ∈ (s.lnk.links.get l).queue, r.payload.length ≤ payloadPlaces

/-- A read of exposure is in progress exactly where its request is in service, with a tube still to take (R118, R120,
R165; log entry 32, DESIGN CHOICE, unsafe), and a save that a link asked for is in flight exactly where its request is
in service (R180). -/
def HeldRequestsStand (s : State) : Prop :=
  (∀ l, (s.map.reads.get l).isSome = true ↔
    ∃ q, (s.lnk.links.get l).inService = some q ∧ (q.command = 0x0F ∨ q.command = 0x10)) ∧
    (∀ l x, s.map.reads.get l = some x → x.left ≠ []) ∧
    ∀ l, (∃ x, s.nvs.save = some x ∧ x.requester = some l) ↔
      ∃ q, (s.lnk.links.get l).inService = some q ∧ (q.command = 0x37 ∨ q.command = 0x38)

/-! ## Scanner -/

/-- The pending slot holds a request only while a sweep is in progress (R56). -/
def SlotOnlyWhileSweeping (s : State) : Prop := s.scn.sweep = none → s.scn.pendingSlot = none

/-! ## Alarms -/

/-- A record whose state is Normal holds empty sets and a repeat count of 0 (R131), and one that is
ClearedUnacked holds no condition (R132). -/
def AlarmRecord.Settled (r : AlarmRecord) : Prop :=
  (r.state = .normal → r = r.toNormal) ∧ (r.state = .clearedUnacked → r.conditions = 0)

/-- While Map Established is false every record is Normal and the hot tube list is empty (R125, R140);
the limit output is at every moment what R138 says it is. -/
def AlarmsFollowMap (s : State) : Prop :=
  (∀ n, (s.alarm n).Settled) ∧ s.alm.limitOutput = limitCalled s ∧
    (s.established = false → (∀ n, (s.alarm n).state = .normal) ∧ s.alm.hotList = [])

/-- The hot tube list holds at most 16 entries, ordered by value descending and then by ascending cell
number, so that no cell stands twice (R140). -/
def HotListOrdered (s : State) : Prop :=
  s.alm.hotList.length ≤ hotPlaces ∧ s.alm.hotList.Pairwise (fun x y => x.before y = true)

/-! ## Cells -/

/-- A coil table is in order, numbers its coils 0 to 7, and its cells do not exceed 2048 (R1, R2). -/
def CoilsFit (coils : Table CoilDef) : Prop :=
  Table.rising coils = true ∧ Table.below 8 coils = true ∧
    (∀ x ∈ coils, 1 ≤ x.2.tubes ∧ x.2.tubes ≤ 64 ∧ 1 ≤ x.2.elevations ∧ x.2.elevations ≤ 8) ∧
      Machine.cellTotal (geometryOf coils) ≤ 2048

/-- Every Defined zone, numbered 0 to 31, lies inside its Defined coil (R9, R122, R123). -/
def ZonesFit (coils : Table CoilDef) (zones : Table Zone) : Prop :=
  ∀ x ∈ zones, x.1 ≤ 31 ∧ ∃ c, Table.find coils x.2.coil = some c ∧
    x.2.lowTube ≤ x.2.highTube ∧ x.2.highTube < c.tubes ∧
      x.2.lowElevation ≤ x.2.highElevation ∧ x.2.highElevation < c.elevations

/-- The cells that a configuration image names are in use under its coil table, and its zones lie in it (R9, R44,
R89). -/
def ConfigImage.Fits (x : ConfigImage) : Prop :=
  CoilsFit x.coils ∧
    Table.below (Machine.cellTotal (geometryOf x.coils)) x.primaries = true ∧
    Table.below (Machine.cellTotal (geometryOf x.coils)) x.alternates = true ∧
    (∀ y ∈ x.sights, y.2 < Machine.cellTotal (geometryOf x.coils)) ∧ ZonesFit x.coils x.zones

/-- The configuration that a save captured, if it is one (R180). -/
def Capture.config? : Capture → Option ConfigImage
  | .config image => some image
  | .exposure _ => none

/-- The exposure that a save captured, if it is one (R180). -/
def Capture.exposure? : Capture → Option ExposureImage
  | .config _ => none
  | .exposure image => some image

/-- The configuration images that a reset may bring back: the stored one, and one that a save in flight
may still write. -/
def Store.configImages (x : Store) : List ConfigImage :=
  (x.configStore.map Stored.contents).toList ++ (x.save.bind fun y => y.capture.config?).toList

/-- The exposure images that a reset may bring back, likewise. -/
def Store.exposureImages (x : Store) : List ExposureImage :=
  (x.exposureStore.map Stored.contents).toList ++ (x.save.bind fun y => y.capture.exposure?).toList

/-- A cell number that is not in use holds the blank state in the cell table and in every companion
array (R3); no sight names it (R44). -/
def UnusedCellsBlank (s : State) : Prop :=
  (∀ n, s.cellTotal ≤ n →
    s.cell n = .blank ∧ s.peak n = none ∧ s.accumulator n = 0 ∧ Table.find s.scn.scans n = none ∧
      Table.find s.cfg.primaries n = none ∧ Table.find s.cfg.alternates n = none) ∧
    ∀ x ∈ s.scn.sights, x.2 < s.cellTotal

/-- Cells `n` and `m` stand in one tube of one coil (R3, R16). -/
def InOneTube (s : State) (n m : Nat) : Prop :=
  ∃ p q, placeOf s.geometry n = some p ∧ placeOf s.geometry m = some q ∧ p.coil = q.coil ∧ p.tube = q.tube

/-- `tubes` are the cells of a read, in their order, parted into whole tubes (R16, R118, R120). -/
def PartedByTube (s : State) (cells : List Nat) (tubes : List (List Nat)) : Prop :=
  tubes.flatten = cells ∧ (∀ t ∈ tubes, t ≠ [] ∧ ∀ n ∈ t, ∀ m ∈ t, InOneTube s n m) ∧
    tubes.Pairwise fun t u => ∀ n ∈ t, ∀ m ∈ u, ¬InOneTube s n m

/-- What a read of exposure in progress has left are whole tubes of the geometry in force, of which it has taken no
cell: no coil edit falls within a read (R5, R16). -/
def ReadsInTubes (s : State) : Prop :=
  ∀ l x, s.map.reads.get l = some x →
    PartedByTube s x.left.flatten x.left ∧ ∀ n ∈ x.left.flatten, ∀ y ∈ x.taken, ¬InOneTube s n y.cell

/-- A pass runs only outside Stopped, where some coil is Defined, and its next tube is a tube of a Defined
coil (R65, R67, R70, R72); in Stopped the pass timer is stopped. -/
def WalkInGeometry (s : State) : Prop :=
  (s.map.mapState = .stopped → s.map.pass = none ∧ s.tmb.passCounter = none) ∧
    (s.map.mapState ≠ .stopped → s.cfg.coils ≠ []) ∧
    ∀ p, s.map.pass = some p → ∃ c, s.coil p.coil = some c ∧ p.tube < c.tubes

/-- The geometry, the walk of a pass, the zones, the reads in progress and everything kept per cell agree, now and in
the images a reset may bring back. -/
def CellsFitGeometry (s : State) : Prop :=
  CoilsFit s.cfg.coils ∧ WalkInGeometry s ∧ UnusedCellsBlank s ∧ ZonesFit s.cfg.coils s.alm.zones ∧ ReadsInTubes s ∧
    ∀ x ∈ s.nvs.configImages, x.Fits

/-- Accumulators in canonical form: their numbers rise and none is 0. -/
def ExposureCanonical (t : Table Nat) : Prop := Table.rising t = true ∧ Table.noBlank 0 t = true

/-- The tables of a configuration image are in order. -/
structure ConfigImage.Ordered (x : ConfigImage) : Prop where
  coils : Table.rising x.coils = true
  channels : Table.rising x.channels = true
  primaries : Table.rising x.primaries = true
  alternates : Table.rising x.alternates = true
  sights : Table.rising x.sights = true
  zones : Table.rising x.zones = true

/-- Every table of the state, and of the images a reset may bring back, is in its one canonical form: the
numbers rise, and no entry equals what an unlisted number reads as, so that equal tables are equal data. -/
structure TablesCanonical (s : State) : Prop where
  channels : Table.rising s.acq.channels = true ∧ Table.noBlank .unused s.acq.channels = true
  slots : Table.rising s.acq.slots = true ∧ Table.noBlank .reset s.acq.slots = true
  sights : Table.rising s.scn.sights = true
  scans : Table.rising s.scn.scans = true
  biases : Table.rising s.scn.biases = true ∧ Table.noBlank .reset s.scn.biases = true
  cells : Table.rising s.map.cells = true ∧ Table.noBlank .blank s.map.cells = true
  peaks : Table.rising s.map.peaks = true
  exposure : ExposureCanonical s.map.exposure
  zones : Table.rising s.alm.zones = true
  records : Table.rising s.alm.records = true ∧ Table.noBlank .reset s.alm.records = true
  windows : Table.rising s.alm.windows = true
  figures : Table.rising s.alm.figures = true
  cellCopies : Table.rising s.frz.cellCopies = true ∧ Table.noBlank .blank s.frz.cellCopies = true
  peakCopies : Table.rising s.frz.peakCopies = true
  coils : Table.rising s.cfg.coils = true
  primaries : Table.rising s.cfg.primaries = true
  alternates : Table.rising s.cfg.alternates = true
  configImages : ∀ x ∈ s.nvs.configImages, x.Ordered
  exposureImages : ∀ x ∈ s.nvs.exposureImages, ExposureCanonical x.exposure

/-- A value of the map range (R13). -/
def MapValue (v : Int) : Prop := mapLow ≤ v ∧ v ≤ mapHigh

/-- A cell holds a value exactly when its quality is not Empty, and then one from −500 to 12500 (R13). -/
def CellRecord.InRange (c : CellRecord) : Prop :=
  (c.value = none ↔ c.quality = .empty) ∧ ∀ v, c.value = some v → MapValue v

/-- A channel's last good value and candidate lie in the map range (R28, R29). -/
def Channel.InRange (c : Channel) : Prop :=
  (∀ g, c.lastGood = some g → MapValue g.value) ∧ ∀ k, c.candidate = some k → MapValue k.value

/-- Every value of the map lies in its range, and so does what the map is drawn from (R13). -/
def MapValuesInRange (s : State) : Prop := (∀ n, (s.cell n).InRange) ∧ ∀ n, (s.channel n).InRange

/-! ## Anchors -/

/-- The primaries and alternates obey the three points of R89, `configured` being the channels that hold a
configuration. -/
def AssignmentsObey (coils : Table CoilDef) (primaries : Table Nat) (alternates : Table Alternate)
    (configured : Nat → Prop) : Prop :=
  (∀ x ∈ primaries, configured x.2) ∧ (∀ x ∈ alternates, configured x.2.channel) ∧
  (∀ x ∈ primaries, ∀ y ∈ primaries, x.2 = y.2 → x = y) ∧
    (∀ x ∈ alternates, ∀ y ∈ alternates, x.2.channel = y.2.channel → x = y) ∧
    ∀ x ∈ alternates,
      (∃ p ∈ primaries, p.1 = x.1) ∧
        ∃ p ∈ primaries, p.2 = x.2.channel ∧
          ∃ here there, placeOf (geometryOf coils) x.1 = some here ∧ placeOf (geometryOf coils) p.1 = some there ∧
            there.coil = here.coil ∧ there.tube = here.tube ∧ there.elevation ≠ here.elevation

/-- A channel holds a configuration exactly while it is not Unused (R29, R30). No channel serves two cells as
primary or as alternate, every alternate stands by the dependence rule, and every assigned channel is configured
(R89, R93), now and in the images a reset may bring back. -/
def AnchorsObey (s : State) : Prop :=
  (∀ x ∈ s.acq.channels, x.2.state = .unused ↔ x.2.config = none) ∧
    AssignmentsObey s.cfg.coils s.cfg.primaries s.cfg.alternates (fun n => (s.channel n).state ≠ .unused) ∧
    ∀ x ∈ s.nvs.configImages,
      AssignmentsObey x.coils x.primaries x.alternates (fun n => ∃ c, (n, c) ∈ x.channels)

/-! ## Words the statements share -/

/-- A good frame on link `l` is taken into service: none is in service, and at most 6 responses wait (R165, R166). -/
def Free (s : State) (l : Link) : Prop :=
  (s.lnk.links.get l).inService = none ∧ (s.lnk.links.get l).queue.length ≤ 6

/-- The link is free and holds edit rights (R167, check 3). -/
def Ready (s : State) (l : Link) : Prop := Free s l ∧ s.holdsRights l = true

/-- `s` with one response placed at the end of link `l`'s queue (R166, R169). -/
def replied (s : State) (l : Link) (tag code : Byte) (result : Result) (payload : List Byte) : State :=
  onLink s l (LinkState.enqueue { tag := tag, command := code, result := result, payload := payload })

/-- `s` with the request of link `l` held in service (R165). -/
def heldOn (s : State) (l : Link) (tag code : Byte) : State :=
  onLink s l fun x => { x with inService := some { tag := tag, command := code } }

/-- The state after an accepted edit that leaves `applied` and appends `notes` after its ConfigChanged,
with the reply that opens with the new generation (R173, R177). -/
def edited (applied : State) (l : Link) (tag code : Byte) (result : Result) (notes : List Note) : State :=
  replied (appendEvents (acceptEdit l applied) notes) l tag code result
    (enc16 ((applied.cfg.generation + 1) % 65536))

/-- A refused edit: its reply opens with the generation, which stands (R173). -/
def editRefused (s : State) (l : Link) (tag code : Byte) (result : Result) : State :=
  replied s l tag code result (enc16 s.cfg.generation)

/-- The poll outstanding in `t` is the first poll of the first slot of `s` that is enabled, from `first` on;
none is outstanding when none is enabled (R21). -/
def PollsFrom (s t : State) (first : Nat) : Prop :=
  (t.acq.poll = none → ∀ k, first ≤ k → k < 12 → slotEnabled s k = false) ∧
    ∀ p, t.acq.poll = some p →
      p.reread = false ∧ first ≤ p.slot ∧ p.slot < 12 ∧ slotEnabled s p.slot = true ∧
        ∀ k, first ≤ k → k < p.slot → slotEnabled s k = false

/-- Channel `n` after a sample that its configuration judges by `judge`, and the events of the sample; an
Unused channel is passed over (R26, R27). -/
def sampledChannel (s : State) (n : Nat) (judge : ChannelConfig → Judgement) : Sampled :=
  let c := s.channel n
  match c.config with
  | none => (c, [])
  | some cfg =>
    ({ c with stats := c.stats.count (judge cfg) }).sample s.cfg.parameters s.tmb.uptime cfg.maxStep (judge cfg)

/-- What the end of a poll leaves (R24 to R26): the slot's status, its eight channels each judged by `judge`,
the events in order, and the next poll of the round. -/
def PollEnds (s t : State) (slot : Nat) (status : SlotStatus) (judge : Nat → ChannelConfig → Judgement) : Prop :=
  t = { s with acq := t.acq, evt := t.evt } ∧
    (∀ k, t.slot k = if k = slot then status else s.slot k) ∧
    (∀ n, n / 8 ≠ slot → t.channel n = s.channel n) ∧
    (∀ i, i < 8 → t.channel (slot * 8 + i) = (sampledChannel s (slot * 8 + i) (judge i)).1) ∧
    t.evt = (appendEvents s
      ((if status.missing && !(s.slot slot).missing then
          [{ kind := .moduleMissing, subject := slot * 8, detail := slot }] else [])
        ++ (List.range 8).flatMap fun i =>
          (sampledChannel s (slot * 8 + i) (judge i)).2.map fun x =>
            { kind := x.1, subject := slot * 8 + i, detail := x.2 })).evt ∧
    PollsFrom s t (slot + 1)

/-- The held requests of `commands` answered: OK on the link that started the operation, MERGED on the
others (R69, R146); every other link, and the straps, as they were. -/
def JoinedAnswered (s t : State) (commands : List Byte) (starter : Link) (payload : List Byte) : Prop :=
  t.lnk.strap1 = s.lnk.strap1 ∧ t.lnk.strap0 = s.lnk.strap0 ∧ ∀ l, t.lnk.links.get l =
    match (s.lnk.links.get l).inService with
    | none => s.lnk.links.get l
    | some q =>
      if q.command ∈ commands then
        { s.lnk.links.get l with
          inService := none
          queue := (s.lnk.links.get l).queue ++
            [{ tag := q.tag, command := q.command, result := if l = starter then .ok else .merged
               payload := payload }] }
      else s.lnk.links.get l

/-! ## The bytes of the replies to reads

Written out from the rules, field by field, for the statement about the reads. Log entry 12 (DEDUCED, unsafe) is the
order of the items and that a repeated group carries no count. -/

/-- The result code (R172). -/
def resultCode : Result → Nat
  | .ok => 0x00 | .clamped => 0x01 | .merged => 0x02 | .incomplete => 0x03 | .busy => 0x10 | .scannerBusy => 0x11
  | .staleGeneration => 0x12 | .staleOccurrence => 0x13 | .nothingToAck => 0x14 | .notPermitted => 0x15
  | .wrongState => 0x16 | .badArgument => 0x17 | .capacity => 0x18 | .notConfigured => 0x19
  | .alternateInUse => 0x1A | .alternateBad => 0x1B | .primaryInService => 0x1C | .storeFault => 0x1D
  | .unknownCommand => 0x1E

/-- The kind code of an event (R176). -/
def kindCode : EventKind → Nat
  | .channelSuspect => 0x10 | .channelFailed => 0x11 | .channelRecovered => 0x12 | .channelReturned => 0x13
  | .channelRetired => 0x14 | .moduleMissing => 0x15 | .alternateAssigned => 0x20 | .alternateReleased => 0x21
  | .biasRejected => 0x22 | .sweepDone => 0x30 | .sweepFaulted => 0x31 | .passAbandoned => 0x40
  | .passOverrun => 0x41 | .mapEstablished => 0x42 | .mappingStopped => 0x43 | .exposureCleared => 0x44
  | .alarmRaised => 0x50 | .alarmCleared => 0x51 | .alarmAcked => 0x52 | .alarmRepeat => 0x53
  | .freezeTaken => 0x60 | .configChanged => 0x70 | .storeSaved => 0x80 | .storeFault => 0x81 | .clockSet => 0x90
  | .startUp => 0x91

/-- An event entry (R176). -/
def eventBytes (x : Event) : List Byte :=
  enc32 x.sequence ++ enc32 x.stamp ++ enc8 (kindCode x.kind) ++ encBool x.clockSet ++ enc16 x.subject
    ++ encInt32 x.detail

/-- Read Status on link `l` (R161, R168, R170): the last refusal and the bit rate as log entry 19 (DEDUCED, unsafe) has
them, and the oldest number of an empty history, which no run reaches, as log entry 29 (DESIGN CHOICE, safe). -/
def statusBytes (s : State) (l : Link) : List Byte :=
  let x := s.evt.links.get l
  let y := s.lnk.links.get l
  let name : Nat := match l with
    | .a => 0
    | .b => 1
    | .e => 2
  let rights : Bool := match l with
    | .a => s.cfg.rightsA
    | .b => s.cfg.rightsB
    | .e => true
  let rate : Nat := match s.lnk.strap1, s.lnk.strap0 with
    | false, false => 57600
    | false, true => 115200
    | true, false => 230400
    | true, true => 460800
  enc8 name ++ encBool rights ++ encBool s.cfg.rightsA ++ encBool s.cfg.rightsB ++ [1] ++ enc32 rate
    ++ enc16 y.frameErrors ++ encOption (fun z => [z.command] ++ enc8 (resultCode z.result)) y.lastRefusal
    ++ enc16 x.flags.toNat ++ enc16 x.mask.toNat ++ encBool x.autoClear ++ enc32 x.cursor
    ++ enc32 ((s.evt.history.head?.map Event.sequence).getD s.evt.nextSequence) ++ enc32 s.evt.nextSequence
    ++ enc8 s.map.mapState.position ++ encBool (decide (s.map.mapState = .mapping)) ++ encBool s.alm.limitOutput
    ++ enc16 s.cfg.generation ++ encBool s.cfg.unsavedEdits ++ encBool s.nvs.configLost ++ encBool s.nvs.exposureLost
    ++ enc32 s.tmb.heaterClock ++ encBool s.tmb.clockSet ++ enc32 s.tmb.uptime

/-- The numbers that a ranged read from `first` covers: at most `limit`, and none from `stop` on (R41, R64, R99,
R118, R141). -/
def coveredBy (limit stop first count : Nat) : List Nat := List.range' first (min (min count limit) (stop - first))

/-- A channel is usable (R43). -/
def usableNow (s : State) (n : Nat) : Bool :=
  decide ((s.channel n).state = .healthy) && (s.channel n).lastGood.any fun g => decide (g.age ≤ 2)

/-- A channel in Read Channel (R42). -/
def channelBytes (s : State) (n : Nat) : List Byte :=
  let c := s.channel n
  if c.state = .unused then enc8 0
  else
    enc8 c.state.position ++ encOption (fun x => enc8 x.position) c.cause
      ++ encOption (fun g => encInt16 g.value ++ enc32 g.stamp ++ enc8 g.age) c.lastGood
      ++ encOption (fun k => encInt16 k.value) c.candidate ++ encOption (fun k => enc8 k.tally) c.candidate
      ++ encOption (fun k => enc8 k.suspectAge) c.candidate ++ [1] ++ enc8 c.lostRun
      ++ encOption (fun x => encInt16 x.offset ++ encInt8 x.trim ++ enc16 x.maxStep) c.config

/-- A channel in Read Channel Statistics (R41). -/
def counterBytes (s : State) (n : Nat) : List Byte :=
  let x := (s.channel n).stats
  enc8 (s.channel n).state.position ++ enc16 x.rejected ++ enc16 x.recovered ++ enc16 x.lost ++ enc16 x.opens
    ++ enc16 x.clamped

/-- A slot in Read Module Status (R42). -/
def slotBytes (s : State) (k : Nat) : List Byte :=
  encBool (s.slot k).missing ++ encBool (s.slot k).fault ++ enc8 (s.slot k).lastOutcome.position
    ++ encBool (decide (∃ i ∈ List.range 8, (s.channel (k * 8 + i)).state ≠ .unused))

/-- A cell in Read Anchors: its primary, its alternate and its serving source (R99). -/
def anchorBytes (s : State) (n : Nat) : List Byte :=
  let service (c : Nat) : List Byte := enc8 (s.channel c).state.position ++ encBool (usableNow s c)
  let primary := Table.find s.cfg.primaries n
  let alternate := Table.find s.cfg.alternates n
  encOption (fun c => enc8 c ++ service c) primary
    ++ encOption (fun x => enc8 x.channel ++ encInt16 x.offset ++ service x.channel) alternate
    ++ enc8
      (if primary.any (usableNow s) then 0 else if alternate.any fun x => usableNow s x.channel then 1 else 2)

/-- A channel in Read Anchors: the cell it is primary of and the cell it is alternate of (R99). -/
def assignedBytes (s : State) (n : Nat) : List Byte :=
  encOption enc16 ((s.cfg.primaries.find? fun x => decide (x.2 = n)).map Prod.fst)
    ++ encOption enc16 ((s.cfg.alternates.find? fun x => decide (x.2.channel = n)).map Prod.fst)

/-- Read Bias (R105) (log entry 28, DEDUCED, unsafe). -/
def biasBytes (s : State) : List Byte :=
  ((List.range 8).flatMap fun k =>
      let x := s.coilBias k
      encBool (s.coil k).isSome ++ encInt16 x.bias ++ enc8 x.disagreements
        ++ encOption (fun y => enc16 y.cell ++ enc16 y.sight ++ encInt32 y.difference
            ++ enc8 (if y.accepted then 0 else 1) ++ encInt16 y.bias ++ enc32 y.uptime) x.last)
    ++ enc16 s.cfg.parameters.disagreeLimit ++ enc8 s.cfg.parameters.biasShift

/-- Read Sweep Status (R63). -/
def sweepBytes (s : State) : List Byte :=
  let kind (k : SweepKind) : List Byte := match k with
    | .full => enc8 0
    | .coil k => enc8 1 ++ enc8 k
  encBool s.scn.sweep.isSome
    ++ encOption (fun x => kind x.kind ++ enc16 x.nextStep ++ enc8 x.attempt ++ enc16 x.taken
        ++ enc16 x.discarded ++ enc16 x.missed ++ enc8 x.missedRun ++ encOption enc8 x.lastFault) s.scn.sweep
    ++ (match s.scn.pendingSlot with
      | none => enc8 0
      | some .full => enc8 1
      | some (.coil k) => enc8 2 ++ enc8 k)
    ++ encOption (fun x => kind x.kind ++ enc8 x.outcome.position ++ enc16 x.taken ++ enc16 x.discarded
        ++ enc16 x.missed ++ encOption enc8 x.lastFault ++ enc32 x.endStamp ++ encBool x.clockSet) s.scn.lastSweep
    ++ enc16 s.scn.sweepSkips ++ enc16 s.scn.sightCount ++ enc16 s.scn.interleave

/-- A cell in Read Scan Records (R64) (log entry 26, DEDUCED, safe). -/
def scanBytes (s : State) (n : Nat) : List Byte :=
  encOption
    (fun x => enc16 x.sight ++ encInt16 x.temperature ++ enc8 x.signal ++ enc32 x.stamp
      ++ enc32 (s.tmb.uptime - x.stamp)
      ++ encBool (decide (s.tmb.uptime - x.stamp ≤ s.cfg.parameters.scanAgeLimit)))
    (Table.find s.scn.scans n)

/-- A coil in Read Coil Table (R11). -/
def coilBytes (s : State) (k : Nat) : List Byte :=
  enc8 k ++ match s.coil k with
    | none => [0, 0]
    | some c =>
      [1, 1] ++ enc8 c.tubes ++ enc8 c.elevations ++ enc16 (c.tubes * c.elevations) ++ enc16 c.design
        ++ enc16 c.step ++ enc16 (baseCell s.geometry k)

/-- Read Map Status (R88) (log entries 28, DEDUCED, and 34, DESIGN CHOICE, both unsafe): a pass in phase Handing off
stands once, as in progress or in the Last Pass record. -/
def mapBytes (s : State) : List Byte :=
  let p := s.cfg.parameters
  let handing := s.map.pass.map Pass.phase = some .handingOff
  enc8 s.map.mapState.position ++ encBool (decide (s.map.mapState = .mapping)) ++ encBool s.map.stopPending.isSome
    ++ enc32 s.map.passNumber ++ enc32 s.map.lastCompleted ++ enc8 s.map.establishCount ++ enc8 p.passPeriod
    ++ enc8 p.maxGap ++ enc8 p.holdLimit ++ enc8 p.establishPasses ++ enc16 s.map.overruns
    ++ encOption (fun x => enc32 x.number ++ enc16 x.generation ++ enc8 x.phase.position ++ enc8 x.coil
        ++ enc8 x.tube ++ enc16 x.tubesWritten ++ enc16 x.wideGaps ++ enc8 x.anchored.toNat)
        (if handing ∧ Config.handingOffInProgress = false then none else s.map.pass)
    ++ encOption (fun x => enc32 x.number ++ enc8 (if x.completed then 0 else 1)
        ++ encOption (fun y => enc8 y.position) x.reason ++ enc16 x.generation ++ enc16 x.tubesWritten
        ++ enc16 x.wideGaps ++ encOption (fun y => enc8 y.toNat) x.unanchored ++ enc32 x.endStamp
        ++ encBool x.clockSet ++ enc32 x.endUptime)
        (if handing ∧ Config.handingOffInProgress = true then none else s.map.lastPass)
    ++ enc16 s.cfg.generation

/-- Read Parameters; Link E holds edit rights at all times (R178, R168). -/
def parameterBytes (s : State) : List Byte :=
  let p := s.cfg.parameters
  enc8 p.samplePeriod ++ enc8 p.confirmCount ++ enc8 p.failTime ++ enc32 p.sweepPeriod ++ enc16 p.replyTimeout
    ++ enc8 p.scanRetries ++ enc8 p.minSignal ++ enc16 p.scanAgeLimit ++ enc8 p.passPeriod ++ enc8 p.maxGap
    ++ enc8 p.holdLimit ++ enc8 p.establishPasses ++ enc16 p.disagreeLimit ++ enc8 p.biasShift
    ++ encInt16 p.watchThreshold ++ enc8 p.exposureSavePeriod ++ encBool s.cfg.autoStart
    ++ encBool s.cfg.rightsA ++ encBool s.cfg.rightsB ++ [1] ++ enc16 s.cfg.generation ++ encBool s.cfg.unsavedEdits

/-- Check Store (R182) (log entries 25 and 28, DEDUCED, unsafe). -/
def storeBytes (s : State) : List Byte :=
  enc8 (if s.nvs.configValid then 0 else 1) ++ enc8 (if s.nvs.exposureValid then 0 else 1)
    ++ encOption (fun x => enc16 x.contents.generation) (if s.nvs.configValid then s.nvs.configStore else none)
    ++ encOption (fun x => enc8 x.capture.image) s.nvs.save ++ encBool s.nvs.waiting
    ++ encBool s.nvs.configLost ++ encBool s.nvs.exposureLost

/-- The quality code (R176). -/
def qualityCode : Quality → Nat
  | .measured => 7 | .substituted => 6 | .scanned => 5 | .interpolated => 4 | .extended => 3 | .neighbour => 2
  | .held => 1 | .stale => 0 | .empty => 15

/-- A cell entry, in the long form or the short (R176). -/
def entryBytes (long : Bool) (n : Nat) (c : CellRecord) (peak : Option Peak) : List Byte :=
  enc16 (n + 2048 * qualityCode c.quality + if peak.isSome then 32768 else 0) ++ encInt16 (c.value.getD 0)
    ++ enc16 (match c.quality with
      | .measured | .substituted | .scanned => c.source.getD 0
      | .held | .stale => c.heldAge
      | _ => 0)
    ++ enc32 c.passStamp ++ encInt16 ((peak.map Peak.value).getD 0)
    ++ if long then enc32 ((peak.map Peak.pass).getD 0) ++ enc32 ((peak.map Peak.stamp).getD 0) else []

/-- The form byte and the entries of Read Cells, wrapping within coil `k` (R148, R149, R176) (log entry 19, DEDUCED,
unsafe). -/
def cellsBytes (s : State) (k start count : Nat) (cell : Nat → CellRecord) (peak : Nat → Option Peak) : List Byte :=
  match s.coil k with
  | none => []
  | some c =>
    let total := c.tubes * c.elevations
    let taken := min (min count 32) total
    encBool (decide (taken ≤ 16)) ++ (List.range taken).flatMap fun j =>
      let n := baseCell s.geometry k + (start + j) % total
      entryBytes (decide (taken ≤ 16)) n (cell n) (peak n)

/-- Read Exposure of some cells: each with its accumulator and current multiplier, and then each coil they cover
(R118). -/
def exposureBytes (s : State) (cells : List Nat) : List Byte :=
  (cells.flatMap fun n =>
      enc32 (s.accumulator n) ++ encBool (decide (s.accumulator n = 4294967295))
        ++ enc16 (match (s.coilOfCell n).bind s.coil, (s.cell n).value with
          | some c, some v => multiplier c.design c.step v
          | _, _ => 0))
    ++ (List.range 8).flatMap fun k =>
      match s.coil k with
      | some c => if ∃ n ∈ cells, s.coilOfCell n = some k then enc16 c.design ++ enc16 c.step else []
      | none => []

/-- The zone cell list (R119). -/
def zoneList (s : State) (z : Zone) : List Nat :=
  match s.coil z.coil with
  | none => []
  | some c =>
    (List.range' z.lowTube (z.highTube + 1 - z.lowTube)).flatMap fun t =>
      (List.range' z.lowElevation (z.highElevation + 1 - z.lowElevation)).map fun e =>
        baseCell s.geometry z.coil + t * c.elevations + e

/-- Zone Exposure Total of the chunk from `resume` on, whose greatest cell is given (R120). -/
def totalBytes (s : State) (n resume : Nat) (list : List Nat) (greatest : Nat) : List Byte :=
  let chunk := (list.drop resume).take 256
  enc8 n ++ enc16 resume ++ enc16 chunk.length ++ enc64 (chunk.map s.accumulator).sum ++ enc16 greatest
    ++ enc32 (s.accumulator greatest) ++ enc16 (chunk.filter fun m => decide (s.accumulator m = 4294967295)).length
    ++ (if resume + 256 < list.length then [1] ++ enc16 (resume + 256) else [0]) ++ enc16 s.cfg.generation

/-- The read `x` with one tube taken: what each cell of it holds now (R113, R118, R120). -/
def tookTube (s : State) (x : ExposureRead) (tube : List Nat) (rest : List (List Nat)) : ExposureRead :=
  { x with
    left := rest
    taken := x.taken ++ tube.map fun n =>
      { cell := n
        accumulator := s.accumulator n
        multiplier := match (s.coilOfCell n).bind s.coil, (s.cell n).value with
          | some c, some v => multiplier c.design c.step v
          | _, _ => 0 } }

/-- `bytes` are the reply of a read that has taken all its cells, and `result` its result (R118, R120). -/
def ReadReplies (x : ExposureRead) (result : Result) (bytes : List Byte) : Prop :=
  match x.reply with
  | .cells clamped coils =>
    result = (if clamped then .clamped else .ok) ∧
      bytes = (x.taken.flatMap fun y =>
          enc32 y.accumulator ++ encBool (decide (y.accumulator = 4294967295)) ++ enc16 y.multiplier)
        ++ coils.flatMap fun c => enc16 c.1 ++ enc16 c.2
  | .total zone first next generation =>
    result = (if next.isSome then .incomplete else .ok) ∧
      ∃ before greatest later, x.taken = before ++ greatest :: later ∧
        (∀ y ∈ before, y.accumulator < greatest.accumulator) ∧
        (∀ y ∈ later, y.accumulator ≤ greatest.accumulator) ∧
        bytes = enc8 zone ++ enc16 first ++ enc16 x.taken.length ++ enc64 (x.taken.map TakenCell.accumulator).sum
          ++ enc16 greatest.cell ++ enc32 greatest.accumulator
          ++ enc16 (x.taken.filter fun y => decide (y.accumulator = 4294967295)).length
          ++ encOption enc16 next ++ enc16 generation

/-- In `t` the read of link `l` is over and its held request is answered with what the read `y` took (R118, R120,
R165). -/
def ReadAnswered (s t : State) (l : Link) (y : ExposureRead) : Prop :=
  t.map.reads.get l = none ∧
    ((s.lnk.links.get l).inService = none → t.lnk.links.get l = s.lnk.links.get l) ∧
    (y.taken ≠ [] → ∀ q, (s.lnk.links.get l).inService = some q →
      ∃ result bytes, ReadReplies y result bytes ∧
        t.lnk.links.get l =
          { s.lnk.links.get l with
            inService := none
            queue := (s.lnk.links.get l).queue ++
              [{ tag := q.tag, command := q.command, result := result, payload := bytes }] })

/-- `n` steps lead from `s` to `t`. -/
def stepsTo : Nat → State → State → Prop
  | 0, s, t => s = t
  | n + 1, s, t => ∃ u, step s = .next u ∧ stepsTo n u t

/-- A zone definition (R122, R141). -/
def definitionBytes (z : Zone) : List Byte :=
  enc8 z.coil ++ enc8 z.lowTube ++ enc8 z.highTube ++ enc8 z.lowElevation ++ enc8 z.highElevation
    ++ enc8 z.enabled.toNat ++ encInt16 z.highLimit ++ encInt16 z.highHighLimit ++ enc16 z.spreadLimit
    ++ enc16 z.rateLimit ++ enc8 z.rateWindow ++ enc8 z.qualityFloor ++ enc8 z.qualityCount ++ enc16 z.deadband
    ++ enc8 z.mode.position ++ enc8 z.repeatInterval ++ enc8 z.ackPolicy.position

/-- An alarm record with the last evaluation figures (R125, R131, R141) (log entry 35, DESIGN CHOICE, unsafe). -/
def judgedBytes (r : AlarmRecord) (figures : Option ZoneFigures) : List Byte :=
  enc8 r.state.position ++ enc8 r.conditions.toNat ++ enc8 r.raised.toNat ++ enc8 r.acknowledged.toNat
    ++ enc16 r.occurrence ++ enc8 ((if r.acks.a then 1 else 0) + if r.acks.b then 2 else 0) ++ enc8 r.repeatCount
    ++ encOption (fun x => encOption encInt16 x.maximum ++ encOption encInt16 x.minimum ++ enc16 x.trusted
        ++ enc16 x.lowQuality ++ encOption encInt32 x.rate ++ enc32 x.pass) figures

/-- A zone in a live Read Zones (R141, R174) (log entry 33, DESIGN CHOICE, unsafe). -/
def zoneBytes (s : State) (n : Nat) : List Byte :=
  match s.zone n with
  | some z =>
    [1, 1] ++ definitionBytes z ++ judgedBytes (s.alarm n) (Table.find s.alm.figures n) ++ enc8 (s.window n).length
  | none => [0] ++ enc16 (s.alarm n).occurrence

/-- A zone in a frozen Read Zones (R150, R174) (log entry 33, DESIGN CHOICE, unsafe). -/
def frozenZoneBytes (h : FrozenHeader) (n : Nat) : List Byte :=
  if n ∈ h.zonesDefined then [1, 0] ++ judgedBytes (Table.get .reset h.records n) (Table.find h.figures n)
  else [0] ++ enc16 (Table.get .reset h.records n).occurrence

/-- A hot tube list with its pass number and Watch Threshold (R141, R176). -/
def hotListBytes (hot : List HotEntry) (pass : Nat) (threshold : Int) : List Byte :=
  enc32 pass ++ enc8 hot.length ++ encInt16 threshold ++ hot.flatMap fun x =>
    enc16 x.cell ++ encInt16 x.value ++ enc8 (qualityCode x.quality) ++ enc32 x.passStamp

end Sys2Proof.Machine
end

