-- ==== Sys2Proof/Certificates/Slice0/Obligations.lean ====
section
/-! DEFINITION. The statements for the provers. -/

open Sys2Proof Sys2Proof.Machine

/-! ## Steps -/

/-- A step is exec of the command at the front of the queue, on the state with the queue's rest; with an empty queue
and no read of exposure in progress it idles (log entry 3, DESIGN CHOICE, safe); the statement ExposureReadsTakeTubes
says what it does with one. -/
def Obligations.StepRunsFrontCommand : Prop :=
  (∀ (c : Instr) (s : State) (rest : List Instr),
    step (s.withPending (c :: rest)) = exec c (s.withPending rest)) ∧
  ∀ s : State, s.pending = [] → (∀ l, s.map.reads.get l = none) → step s = .next s

/-- No command ends in a fault or a refusal, in any state (log entries 5, DESIGN CHOICE, and 6, DEDUCED, both
safe). -/
def Obligations.EveryCommandCompletes : Prop := ∀ (c : Instr) (s : State), ∃ t, exec c s = .next t

/-! ## Links (chapter 10) -/

/-- R163: what each receiver state does with a byte that does not complete a Length or a frame. -/
def Obligations.LinkByteMovesReceiver : Prop :=
  ∀ (s : State) (l : Link) (byte : Byte) (broken late : Bool),
    let received (r : Receiver) : State := onLink s l fun x => { x with receiver := r }
    let hunted : Receiver := if byte = 0xC5 ∧ broken = false then .receiving [] else .hunting
    let x := s.lnk.links.get l
    (x.receiver = .hunting → exec (.linkByte l byte broken late) s = .next (received hunted)) ∧
    (x.receiver = .discarding →
      exec (.linkByte l byte broken late) s = .next (if late then received hunted else s)) ∧
    ∀ buffer, x.receiver = .receiving buffer →
      (late = true → exec (.linkByte l byte broken late) s = .next (received hunted)) ∧
      (late = false → broken = true →
        exec (.linkByte l byte broken late) s
          = .next (onLink s l fun y =>
              { y with receiver := .discarding, frameErrors := raise max16 y.frameErrors })) ∧
      (late = false → broken = false → buffer.length = 0 →
        exec (.linkByte l byte broken late) s = .next (received (.receiving (buffer ++ [byte]))))

/-- R164: the two places where a frame is judged. -/
def Obligations.FrameJudgedAtLengthAndCrc : Prop :=
  ∀ (s : State) (l : Link) (buffer : List Byte) (byte : Byte),
    (s.lnk.links.get l).receiver = .receiving buffer →
    let whole := buffer ++ [byte]
    let n := frameLength whole
    let dropped (r : Receiver) : State := onLink s l fun y =>
      { y with receiver := r, frameErrors := raise max16 y.frameErrors }
    let hunting : State := onLink s l fun y => { y with receiver := .hunting }
    (buffer.length = 1 → (n < 2 ∨ 482 < n) → exec (.linkByte l byte false false) s = .next (dropped .discarding)) ∧
    (2 ≤ n → n ≤ 482 →
      (1 ≤ buffer.length → buffer.length + 1 < n + 4 →
        exec (.linkByte l byte false false) s
          = .next (onLink s l fun y => { y with receiver := .receiving whole })) ∧
      (buffer.length + 1 = n + 4 →
        (crc16 (whole.take (n + 2)) ≠ byteAt whole (n + 2) ++ byteAt whole (n + 3) →
          exec (.linkByte l byte false false) s = .next (dropped .hunting)) ∧
        (crc16 (whole.take (n + 2)) = byteAt whole (n + 2) ++ byteAt whole (n + 3) →
          exec (.linkByte l byte false false) s
            = .next (serveFrame l (byteAt whole 2) (byteAt whole 3) ((whole.drop 4).take (n - 2)) hunting))))

/-- The last CRC byte of a request's frame does what the row of the request's command does: the model's reading of
the rows of the table (log entry 6, DEDUCED, safe), over its order of the arguments (log entry 13, DEDUCED, unsafe). -/
def Obligations.LastFrameByteServesCommand : Prop :=
  ∀ (s : State) (i : Instr) (r : Request) (bytes : List Byte) (byte : Byte),
    i.wf = true → requestOf i = some r → r.frame = 0xC5 :: (bytes ++ [byte]) →
    (s.lnk.links.get r.link).receiver = .receiving bytes →
    exec (.linkByte r.link byte false false) s
      = exec i (onLink s r.link fun x => { x with receiver := .hunting })

/-- The payload of every request is read back as the command it was written from (R171, R174). The order of the
arguments and the form that opens them are the model's reading (log entry 13, DEDUCED, unsafe). -/
def Obligations.RequestsReadBack : Prop :=
  ∀ (i : Instr) (r : Request),
    i.wf = true → requestOf i = some r → commandKnown r.code = true →
    parseRequest r.link r.tag r.code r.payload = some i ∧ lengthFits r.code r.payload.length = true

/-- R165 and R166: a frame behind 7 or more responses is dropped and counted; behind a request in service
it is answered BUSY and does nothing else; the oldest response leaves the queue when it has been sent. That the
payload of BUSY is empty for an edit too is the model's reading of R165 beside R173 (log entry 15, DEDUCED, unsafe), and
that RESPONSE_SENT on an empty queue changes nothing its choice (log entry 5, DESIGN CHOICE, safe). -/
def Obligations.QueuesBusyFullAndSent : Prop :=
  ∀ (s : State) (l : Link) (tag code : Byte) (payload : List Byte),
    let x := s.lnk.links.get l
    exec (.responseSent l) s = .next (onLink s l fun y => { y with queue := y.queue.tail }) ∧
    (7 ≤ x.queue.length →
      serveFrame l tag code payload s
        = onLink s l fun y => { y with frameErrors := raise max16 y.frameErrors }) ∧
    (x.queue.length ≤ 6 → x.inService.isSome = true →
      serveFrame l tag code payload s
        = onLink s l fun y =>
            { y with
              queue := y.queue ++ [{ tag := tag, command := code, result := .busy, payload := [] }]
              lastRefusal := some { command := code, result := .busy } })

/-- R167: the checks of the Link Controller, in order, and that a refusal changes nothing else. That its payload is
empty for an edit too is the model's reading of R167 beside R173 (log entry 15, DEDUCED, unsafe), and that the length of
either form of a command fits it its choice (log entry 14, DESIGN CHOICE, unsafe). -/
def Obligations.LinkControllerChecks : Prop :=
  ∀ (s : State) (l : Link) (tag code : Byte) (payload : List Byte), Free s l →
    let refused (r : Result) : State := onLink s l fun y =>
      { y with
        queue := y.queue ++ [{ tag := tag, command := code, result := r, payload := [] }]
        lastRefusal := some { command := code, result := r } }
    (commandKnown code = false →
      exec (.unknownCommandCode l tag code payload) s = .next (refused .unknownCommand)) ∧
    (code = 0x24 → l = .e → serveFrame l tag code payload s = refused .notPermitted) ∧
    (0x30 ≤ code.toNat → commandKnown code = true → s.holdsRights l = false →
      serveFrame l tag code payload s = refused .notPermitted) ∧
    (commandKnown code = true → (code = 0x24 → l ≠ .e) → (0x30 ≤ code.toNat → s.holdsRights l = true) →
      lengthFits code payload.length = false → serveFrame l tag code payload s = refused .badArgument)

/-! ## Events (chapter 9) -/

/-- R153: one append, before the history is exhausted and after, and several appends in their order. -/
def Obligations.AppendIsOneAction : Prop :=
  ∀ (s : State) (n : Note),
    let t := appendEvent s n
    let entry : Event :=
      { sequence := s.evt.nextSequence, stamp := s.tmb.heaterClock, clockSet := s.tmb.clockSet
        kind := n.kind, subject := n.subject, detail := n.detail }
    t = s.withEvt t.evt ∧
    (s.evt.nextSequence < 4294967295 →
      t.evt.nextSequence = s.evt.nextSequence + 1 ∧
      (s.evt.history.length < 128 → t.evt.history = s.evt.history ++ [entry]) ∧
      (s.evt.history.length = 128 → t.evt.history = s.evt.history.tail ++ [entry])) ∧
    (4294967295 ≤ s.evt.nextSequence →
      t.evt.nextSequence = s.evt.nextSequence ∧ t.evt.history = s.evt.history) ∧
    appendEvents s [] = s ∧ (∀ rest, appendEvents s (n :: rest) = appendEvents t rest) ∧
    ∀ l,
      let x := s.evt.links.get l
      let y := t.evt.links.get l
      y.flags = x.flags ||| n.kind.flag ∧ y.cursor = x.cursor ∧ y.mask = x.mask ∧ y.autoClear = x.autoClear ∧
        y.attention = decide (y.flags &&& ~~~y.mask ≠ 0)

/-- R155 and R156: what Read Events returns and where the cursor goes, for a history that stands as R151 says; a
count of 0 is refused. -/
def Obligations.ReadEventsFromCursor : Prop :=
  ∀ (s : State) (l : Link) (tag : Byte), Free s l →
    exec (.readEvents l tag 0) s = .next (replied s l tag 0x11 .badArgument []) ∧
    ∀ count : Nat, HistoryConsecutive s → 1 ≤ count →
      (s.evt.links.get l).cursor ≤ s.evt.nextSequence →
      let cursor := (s.evt.links.get l).cursor
      let oldest := s.evt.nextSequence - 128
      let start := max cursor oldest
      let taken := min (min count 8) (s.evt.nextSequence - start)
      let entries := (s.evt.history.drop (start - oldest)).take taken
      let loss : List Byte :=
        if cursor < oldest then [1] ++ enc32 (oldest - cursor) ++ enc32 cursor ++ enc32 (oldest - 1) else [0]
      let moved : EventLink :=
        { s.evt.links.get l with cursor := start + taken }
      let after : EventLink := if cursor < oldest then moved.setFlags historyLoss else moved
      entries.length = taken ∧
      exec (.readEvents l tag count) s
        = .next
            (replied (s.withEvt { s.evt with links := s.evt.links.set l after }) l tag 0x11
              (if 8 < count then .clamped else .ok)
              (loss ++ enc32 (start + taken) ++ enc32 oldest ++ enc32 s.evt.nextSequence ++ enc8 taken
                ++ entries.flatMap eventBytes))

/-- R158, R159, R160 and R170: Clear Flags, Set Mask and the Auto Clear of Read Status act on the sending link alone,
and Read Status carries the flags as they stood. Its bytes rest on log entries 19 (DEDUCED, unsafe) and 29 (DESIGN
CHOICE, safe). -/
def Obligations.FlagCommandsActOnTheirLink : Prop :=
  ∀ (s : State) (l : Link) (tag : Byte), Free s l →
    let x := s.evt.links.get l
    let put (y : EventLink) : State :=
      s.withEvt { s.evt with links := s.evt.links.set l { y with attention := decide (y.flags &&& ~~~y.mask ≠ 0) } }
    (∀ flags : BitVec 16, flags.toNat < 1024 →
      exec (.clearFlags l tag flags) s
        = .next (replied (put { x with flags := x.flags &&& ~~~(flags.setWidth 10) }) l tag 0x22 .ok [])) ∧
    (∀ flags : BitVec 16, 1024 ≤ flags.toNat →
      exec (.clearFlags l tag flags) s = .next (replied s l tag 0x22 .badArgument [])) ∧
    (∀ (mask : BitVec 16) (auto : Bool), mask.toNat < 1024 →
      exec (.setMask l tag mask auto) s
        = .next (replied (put { x with mask := mask.setWidth 10, autoClear := auto }) l tag 0x23 .ok [])) ∧
    (∀ (mask : BitVec 16) (auto : Bool), 1024 ≤ mask.toNat →
      exec (.setMask l tag mask auto) s = .next (replied s l tag 0x23 .badArgument [])) ∧
    (x.autoClear = true →
      exec (.readStatus l tag) s
        = .next (replied (put { x with flags := 0 }) l tag 0x01 .ok (statusBytes s l))) ∧
    (x.autoClear = false → exec (.readStatus l tag) s = .next (replied s l tag 0x01 .ok (statusBytes s l)))

/-! ## Resets and clocks (chapter 11) -/

/-- What both resets leave, whatever the images hold: reset values of every block, the events of the
start-up with their stamps, the flags and attention lines that these call for, and the clocks, which only the
external reset line keeps. That the commands that wait stand is the model's choice (log entry 3, DESIGN CHOICE,
safe). -/
def Obligations.ResetsLeaveBlocks : Prop :=
  ∀ (s : State) (strap1 strap0 external : Bool),
    let i : Instr := if external then .externalResetLine strap1 strap0 else .powerOnReset strap1 strap0
    let notes (external config exposure : Bool) : List (Nat × EventKind × Nat × Int) :=
      (0, .startUp, 0, if external then 2 else 1) ::
        match config, exposure with
        | true, true => []
        | false, true => [(1, .storeFault, 0, 2)]
        | true, false => [(1, .storeFault, 1, 2)]
        | false, false => [(1, .storeFault, 0, 2), (2, .storeFault, 1, 2)]
    ∃ t, exec i s = .next t ∧
      t.tmb.uptime = 0 ∧ t.tmb.heaterClock = (if external then s.tmb.heaterClock else 0) ∧
      t.tmb.clockSet = (external && s.tmb.clockSet) ∧
      t.lnk = { strap1 := strap1, strap0 := strap0, links := { a := .reset, b := .reset, e := .reset } } ∧
      t.acq.poll = none ∧ t.acq.slots = [] ∧
      t.scn.sweep = none ∧ t.scn.pendingSlot = none ∧ t.scn.lastSweep = none ∧ t.scn.sweepSkips = 0 ∧
      t.scn.scans = [] ∧ t.scn.biases = [] ∧
      t.map.stopPending = none ∧ t.map.passNumber = 0 ∧ t.map.pass = none ∧ t.map.establishCount = 0 ∧
      t.map.lastCompleted = 0 ∧ t.map.lastPass = none ∧ t.map.overruns = 0 ∧ t.map.cells = [] ∧ t.map.peaks = [] ∧
      t.map.reads = { a := none, b := none, e := none } ∧
      t.alm = { zones := t.alm.zones, records := [], windows := [], figures := [], hotList := [], hotPass := 0
                limitOutput := false } ∧
      t.frz = { cellCopies := [], peakCopies := [], header := none, freezeNumber := 0, freeze := none } ∧
      t.nvs.save = none ∧ t.nvs.waiting = false ∧ t.cfg.unsavedEdits = false ∧ t.pending = s.pending ∧
      t.evt.history.map (fun e => (e.sequence, e.kind, e.subject, e.detail))
        = notes external t.nvs.configValid t.nvs.exposureValid ∧
      t.evt.nextSequence = t.evt.history.length ∧
      (∀ e ∈ t.evt.history, e.stamp = t.tmb.heaterClock ∧ e.clockSet = t.tmb.clockSet) ∧
      ∀ l,
        let x := t.evt.links.get l
        x.cursor = 0 ∧
          x.flags = (if t.nvs.configValid = true ∧ t.nvs.exposureValid = true then 0x100 else 0x180) ∧
          x.attention = decide (x.flags &&& ~~~x.mask ≠ 0)

/-- R184, steps 2 to 4 and 6: what a reset takes from the two images, from retained memory, and from the
defaults of an Unconfigured controller (R45, R178, R184), which are written out; and that it leaves both stored images
as they are, but for one whose write it cuts, which then can no longer be read (R179, R180; log entry 11, DEDUCED,
unsafe). -/
def Obligations.ResetsLoadImages : Prop :=
  ∀ (s : State) (strap1 strap0 external : Bool),
    let i : Instr := if external then .externalResetLine strap1 strap0 else .powerOnReset strap1 strap0
    let store := cutSave s.nvs
    let config := readConfigImage store.configStore
    let defaults : ConfigImage :=
      { coils := [], channels := [], primaries := [], alternates := [], sightCount := 0, sights := [], interleave := 1
        zones := []
        parameters :=
          { samplePeriod := 10, confirmCount := 3, failTime := 10, sweepPeriod := 0, replyTimeout := 500
            scanRetries := 1, minSignal := 40, scanAgeLimit := 900, passPeriod := 5, maxGap := 3, holdLimit := 12
            establishPasses := 2, disagreeLimit := 300, biasShift := 3, watchThreshold := 9000
            exposureSavePeriod := 4 }
        rightsA := false, rightsB := false, autoStart := false, masks := { a := 0, b := 0, e := 0 }
        autoClears := { a := false, b := false, e := false }, generation := 0 }
    let image := config.getD defaults
    let exposure := readExposureImage store.exposureStore
    let kept (source : ExposureImage) (n : Nat) : Nat :=
      if cellKept source.geometry (geometryOf image.coils) n then Table.get 0 source.exposure n else 0
    ∃ t, exec i s = .next t ∧
      t.cfg = { coils := image.coils, primaries := image.primaries, alternates := image.alternates
                parameters := image.parameters, rightsA := image.rightsA, rightsB := image.rightsB
                generation := image.generation, unsavedEdits := false, autoStart := image.autoStart } ∧
      t.scn.sightCount = image.sightCount ∧ t.scn.sights = image.sights ∧ t.scn.interleave = image.interleave ∧
      t.alm.zones = image.zones ∧
      t.acq.channels = image.channels.map (fun x =>
        (x.1, { Channel.unused with
                state := if x.2.retired then .retired else .acquiring, config := some x.2.config })) ∧
      (∀ l, (t.evt.links.get l).mask = image.masks.get l ∧
        (t.evt.links.get l).autoClear = image.autoClears.get l) ∧
      t.nvs.configStore = store.configStore ∧ t.nvs.exposureStore = store.exposureStore ∧
      (∀ x, s.nvs.save = some x →
        store.configStore = (if x.capture.image = 0 then none else s.nvs.configStore) ∧
        store.exposureStore = (if x.capture.image = 1 then none else s.nvs.exposureStore)) ∧
      (s.nvs.save = none →
        store.configStore = s.nvs.configStore ∧ store.exposureStore = s.nvs.exposureStore) ∧
      t.nvs.configValid = config.isSome ∧ t.nvs.configLost = config.isNone ∧
      t.nvs.exposureValid = exposure.isSome ∧
      (t.map.mapState = .establishing ↔ config.isSome ∧ image.autoStart = true ∧ image.coils ≠ []) ∧
      (t.map.mapState = .establishing ∨ t.map.mapState = .stopped) ∧
      t.map.retainedGeometry = geometryOf image.coils ∧
      t.tmb.sampleCounter = image.parameters.samplePeriod ∧
      t.tmb.sweepCounter
        = (if image.parameters.sweepPeriod = 0 then none else some image.parameters.sweepPeriod) ∧
      t.tmb.exposureSaveCounter
        = (if image.parameters.exposureSavePeriod = 0 then none else some image.parameters.exposureSavePeriod) ∧
      t.tmb.passCounter
        = (if t.map.mapState = .establishing then some image.parameters.passPeriod else none) ∧
      (external = true →
        t.nvs.exposureLost = s.nvs.exposureLost ∧
        ∀ n, t.accumulator n
          = kept { exposure := s.map.exposure, geometry := s.map.retainedGeometry } n) ∧
      (external = false →
        t.nvs.exposureLost = exposure.isNone ∧
        (∀ n x, exposure = some x → t.accumulator n = kept x n) ∧
        (exposure = none → ∀ n, t.accumulator n = 0))

/-! ## Configuration edits and saves (chapter 11) -/

/-- R177: what the acceptance of an edit does besides the edit itself. -/
def Obligations.AcceptedEditCounts : Prop :=
  ∀ (s : State) (l : Link),
    let g := if s.cfg.generation < 65535 then s.cfg.generation + 1 else 0
    s.cfg.generation ≤ 65535 →
    acceptEdit l s
      = appendEvent (s.withCfg { s.cfg with generation := g, unsavedEdits := true })
          { kind := .configChanged, detail := g, subject := match l with
            | .a => 0
            | .b => 1
            | .e => 2 }

/-- R177: an edit written against another generation is refused with the current one, and changes nothing
but the link's queue and last refusal. -/
def Obligations.StaleEditsRefused : Prop :=
  ∀ (s : State) (i : Instr) (r : Request) (expected : Nat) (rest : List Byte),
    i.wf = true → requestOf i = some r → isEditCode r.code = true →
    r.payload = enc16 expected ++ rest → expected < 65536 → expected ≠ s.cfg.generation → Ready s r.link →
    exec i s = .next (replied s r.link r.tag r.code .staleGeneration (enc16 s.cfg.generation))

/-- R178: Set Parameters refuses a list with a number outside 1 to 16 or with one parameter twice; of any other list
it clamps each value to its row, applies them all, each to the parameter of its number, and reloads or stops a
counter only when its period changes (R58, R181). -/
def Obligations.SetParametersAppliesClamped : Prop :=
  ∀ (s : State) (l : Link) (tag : Byte) (pairs : List ParameterPair), Ready s l →
    let sent := exec (.setParameters l tag s.cfg.generation pairs) s
    ((∃ x ∈ pairs, x.number < 1 ∨ 16 < x.number) ∨ ¬(pairs.map ParameterPair.number).Nodup →
      sent = .next (editRefused s l tag 0x4D .badArgument)) ∧
    ((∀ x ∈ pairs, 1 ≤ x.number ∧ x.number ≤ 16) → (pairs.map ParameterPair.number).Nodup →
      let old := s.cfg.parameters
      let given (n : Nat) (value : Int) : Int :=
        match pairs.find? fun x => decide (x.number = n) with
        | some x => clampParameter n x.value
        | none => value
      let reload (old new : Nat) (counter : Option Nat) : Option Nat :=
        if old = new then counter else if new = 0 then none else some new
      ∃ p : Parameters,
        (p.samplePeriod = given 1 old.samplePeriod ∧ p.confirmCount = given 2 old.confirmCount ∧
          p.failTime = given 3 old.failTime ∧ p.sweepPeriod = given 4 old.sweepPeriod ∧
          p.replyTimeout = given 5 old.replyTimeout ∧ p.scanRetries = given 6 old.scanRetries ∧
          p.minSignal = given 7 old.minSignal ∧ p.scanAgeLimit = given 8 old.scanAgeLimit ∧
          p.passPeriod = given 9 old.passPeriod ∧ p.maxGap = given 10 old.maxGap ∧
          p.holdLimit = given 11 old.holdLimit ∧ p.establishPasses = given 12 old.establishPasses ∧
          p.disagreeLimit = given 13 old.disagreeLimit ∧ p.biasShift = given 14 old.biasShift ∧
          p.watchThreshold = given 15 old.watchThreshold ∧
          p.exposureSavePeriod = given 16 old.exposureSavePeriod) ∧
        sent
          = .next
              (edited
                ((s.withCfg { s.cfg with parameters := p }).withTmb
                  { s.tmb with
                    sweepCounter := reload old.sweepPeriod p.sweepPeriod s.tmb.sweepCounter
                    exposureSaveCounter :=
                      reload old.exposureSavePeriod p.exposureSavePeriod s.tmb.exposureSaveCounter })
                l tag 0x4D
                (if pairs.any fun x => decide (clampParameter x.number x.value ≠ x.value) then .clamped else .ok) []))

/-- R178: the clamped value of each parameter lies in its range and is the value given when that does; a
Sweep Period from 1 to 59 becomes 60 and 0 stays 0 (R58). -/
def Obligations.ParametersClampToRange : Prop :=
  ∀ v : Int,
    let row (n : Nat) (lo hi : Int) : Prop :=
      lo ≤ clampParameter n v ∧ clampParameter n v ≤ hi ∧ (lo ≤ v → v ≤ hi → clampParameter n v = v) ∧
        (v < lo → clampParameter n v = lo) ∧ (hi < v → clampParameter n v = hi)
    row 1 1 100 ∧ row 2 1 15 ∧ row 3 1 255 ∧ row 5 50 2000 ∧ row 6 0 3 ∧ row 7 0 255 ∧ row 8 10 7200 ∧ row 9 1 60 ∧
      row 10 1 7 ∧ row 11 1 255 ∧ row 12 1 16 ∧ row 13 10 2000 ∧ row 14 0 7 ∧ row 15 (-500) 12500 ∧ row 16 0 24 ∧
      (v ≤ 0 → clampParameter 4 v = 0) ∧ (1 ≤ v → v ≤ 59 → clampParameter 4 v = 60) ∧
      (60 ≤ v → v ≤ 86400 → clampParameter 4 v = v) ∧ (86400 < v → clampParameter 4 v = 86400)

/-- R168, R178, R183: Set Edit Rights, Set Auto Start and Set Clock; a second raises the uptime, which stops
at its maximum, and the heater clock, which goes to 0. -/
def Obligations.RightsAutoStartAndClocks : Prop :=
  (∀ s : State,
    ∃ up clock, exec .clockSecond s = .next (s.withTmb { s.tmb with uptime := up, heaterClock := clock }) ∧
      (s.tmb.uptime < 4294967295 → up = s.tmb.uptime + 1) ∧ (s.tmb.uptime = 4294967295 → up = 4294967295) ∧
      (s.tmb.heaterClock < 4294967295 → clock = s.tmb.heaterClock + 1) ∧
      (s.tmb.heaterClock = 4294967295 → clock = 0)) ∧
  ∀ (s : State) (l : Link) (tag : Byte), Ready s l →
    (∀ a b, exec (.setEditRights l tag s.cfg.generation a b) s
      = .next (edited (s.withCfg { s.cfg with rightsA := a, rightsB := b }) l tag 0x4E .ok [])) ∧
    (∀ on, exec (.setAutoStart l tag s.cfg.generation on) s
      = .next (edited (s.withCfg { s.cfg with autoStart := on }) l tag 0x4F .ok [])) ∧
    ∀ value, exec (.setClock l tag value) s
      = .next
          (replied
            (appendEvent (s.withTmb { s.tmb with heaterClock := value, clockSet := true })
              { kind := .clockSet, subject := linkNumber l, detail := if s.tmb.clockSet then 1 else 0 })
            l tag 0x36 .ok [])

/-- R111, R179 to R181: what each image captures; a save is captured and held, or refused BUSY behind one in flight; an
exposure save expiry starts a scheduled save or leaves it waiting. -/
def Obligations.SavesCaptureAndHold : Prop :=
  ∀ (s : State) (l : Link) (tag : Byte),
    let flying (x : Save) (t : State) : State := t.withNvs { t.nvs with save := some x }
    let image := captureConfig s
    image =
      { coils := s.cfg.coils, channels := image.channels, primaries := s.cfg.primaries, alternates := s.cfg.alternates
        sightCount := s.scn.sightCount, sights := s.scn.sights, interleave := s.scn.interleave, zones := s.alm.zones
        parameters := s.cfg.parameters, rightsA := s.cfg.rightsA, rightsB := s.cfg.rightsB
        autoStart := s.cfg.autoStart, generation := s.cfg.generation
        masks := { a := s.evt.links.a.mask, b := s.evt.links.b.mask, e := s.evt.links.e.mask }
        autoClears :=
          { a := s.evt.links.a.autoClear, b := s.evt.links.b.autoClear, e := s.evt.links.e.autoClear } } ∧
    (TablesCanonical s → ∀ n,
      Table.find image.channels n =
        (s.channel n).config.map fun cfg => { config := cfg, retired := decide ((s.channel n).state = .retired) }) ∧
    captureExposure s = { exposure := s.map.exposure, geometry := s.map.retainedGeometry } ∧
    (Ready s l → s.nvs.save = none →
      exec (.saveConfiguration l tag) s
        = .next (heldOn (flying { capture := .config (captureConfig s), requester := some l } s) l tag 0x37) ∧
      exec (.saveExposure l tag) s
        = .next (heldOn (flying { capture := .exposure (captureExposure s), requester := some l } s) l tag 0x38)) ∧
    (Ready s l → s.nvs.save.isSome = true →
      exec (.saveConfiguration l tag) s = .next (replied s l tag 0x37 .busy []) ∧
      exec (.saveExposure l tag) s = .next (replied s l tag 0x38 .busy [])) ∧
    (s.tmb.exposureSaveCounter.isSome = true →
      let reloaded := s.withTmb { s.tmb with exposureSaveCounter := some s.cfg.parameters.exposureSavePeriod }
      (s.nvs.save = none →
        exec .exposureSaveExpiry s
          = .next (flying { capture := .exposure (captureExposure s), requester := none } reloaded)) ∧
      (s.nvs.save.isSome = true →
        exec .exposureSaveExpiry s = .next (reloaded.withNvs { s.nvs with waiting := true })))

/-- R180, steps 3 and 4: how a save ends, for either image, either outcome and either cause. That no image can be
read in the place of a failed save is the model's reading (log entry 11, DEDUCED, unsafe). -/
def Obligations.SaveEndSettlesImage : Prop :=
  ∀ (s : State) (agrees : Bool) (x : Save), s.nvs.save = some x →
    ∃ t, exec (.saveEnd agrees) s = .next t ∧
      t = { s with nvs := t.nvs, cfg := t.cfg, evt := t.evt, lnk := t.lnk } ∧
      t.cfg = { s.cfg with unsavedEdits := t.cfg.unsavedEdits } ∧
      t.evt = (appendEvent s
        { kind := if agrees then .storeSaved else .storeFault
          subject := x.capture.image, detail := if x.requester.isSome then 0 else 1 }).evt ∧
      (s.nvs.waiting = false → t.nvs.save = none) ∧
      (s.nvs.waiting = true →
        t.nvs.save = some { capture := .exposure (captureExposure s), requester := none }) ∧
      t.nvs.waiting = false ∧
      (∀ image, x.capture = .config image →
        t.nvs.configValid = agrees ∧ t.nvs.exposureValid = s.nvs.exposureValid ∧
        t.nvs.exposureLost = s.nvs.exposureLost ∧
        t.nvs.exposureStore = s.nvs.exposureStore ∧
        (agrees = true →
          t.nvs.configStore = some { contents := image, checksum := configChecksum image } ∧
          t.nvs.configLost = false ∧
          t.cfg.unsavedEdits = (s.cfg.unsavedEdits && decide (image.generation ≠ s.cfg.generation))) ∧
        (agrees = false →
          readConfigImage t.nvs.configStore = none ∧ t.nvs.configLost = s.nvs.configLost ∧
          t.cfg.unsavedEdits = s.cfg.unsavedEdits)) ∧
      (∀ image, x.capture = .exposure image →
        t.nvs.exposureValid = agrees ∧ t.nvs.configValid = s.nvs.configValid ∧
        t.nvs.configLost = s.nvs.configLost ∧
        t.nvs.configStore = s.nvs.configStore ∧ t.cfg.unsavedEdits = s.cfg.unsavedEdits ∧
        (agrees = true →
          t.nvs.exposureStore = some { contents := image, checksum := exposureChecksum image } ∧
          t.nvs.exposureLost = false) ∧
        (agrees = false →
          readExposureImage t.nvs.exposureStore = none ∧ t.nvs.exposureLost = s.nvs.exposureLost)) ∧
      (x.requester = none → t.lnk = s.lnk) ∧
      (∀ l q, x.requester = some l → (s.lnk.links.get l).inService = some q →
        t.lnk = (replied (onLink s l fun y => { y with inService := none }) l q.tag q.command
          (if agrees then .ok else .storeFault) (if agrees then [] else enc8 x.capture.image)).lnk)

/-! ## Acquisition (chapter 2) -/

/-- R21, R22: a sample expiry reloads its counter, ages every last good value, and starts a round unless one
runs. -/
def Obligations.SampleExpiryAgesAndPolls : Prop :=
  ∀ s : State, ∃ t, exec .sampleExpiry s = .next t ∧
    t = { s with tmb := { s.tmb with sampleCounter := s.cfg.parameters.samplePeriod }, acq := t.acq } ∧
    t.acq.slots = s.acq.slots ∧
    (∀ n, t.channel n =
      { s.channel n with
        lastGood := (s.channel n).lastGood.map fun g => { g with age := if g.age < 255 then g.age + 1 else 255 } }) ∧
    (s.acq.poll.isSome = true → t.acq.poll = s.acq.poll) ∧
    (s.acq.poll = none → PollsFrom s t 0)

/-- R23 to R27: how a reply, a bad frame and silence end a poll or send its re-read. That a reply time expiry with no
Poll request outstanding changes nothing is the model's choice (log entry 5, DESIGN CHOICE, safe). -/
def Obligations.PollRepliesEndPolls : Prop :=
  ∀ s : State,
    (s.acq.poll = none → ∀ bytes came,
      exec (.moduleReply bytes) s = .next s ∧ exec (.replyTimeExpiry came) s = .next s) ∧
    ∀ p, s.acq.poll = some p →
      let badFrames (i : Instr) : Prop :=
        i = .replyTimeExpiry true ∨ ∃ bytes, i = .moduleReply bytes ∧ wellFormedReply p.slot bytes = none
      (∀ bytes r, wellFormedReply p.slot bytes = some r → ∃ t, exec (.moduleReply bytes) s = .next t ∧
        PollEnds s t p.slot
          { missing := false, fault := r.fault
            lastOutcome := if r.fault then .fault else if p.reread then .goodAfterReread else .good }
          fun i cfg => if r.fault then .lost else judgeInput cfg (r.readings.getD i 0) (r.opens.getLsbD i)) ∧
      (∀ i, badFrames i → p.reread = false →
        exec i s = .next (s.withAcq { s.acq with poll := some { slot := p.slot, reread := true } })) ∧
      (∀ i, badFrames i → p.reread = true → ∃ t, exec i s = .next t ∧
        PollEnds s t p.slot { missing := false, fault := (s.slot p.slot).fault, lastOutcome := .badFrame }
          fun _ _ => .lost) ∧
      ∃ t, exec (.replyTimeExpiry false) s = .next t ∧
        PollEnds s t p.slot { missing := true, fault := (s.slot p.slot).fault, lastOutcome := .noReply }
          fun _ _ => .lost

/-- R27, R28 and R40: which judgement an input gets, that the gain term is the quotient rounded to the nearest
integer, an exact half away from zero, and the one counter that each judgement raises. -/
def Obligations.CorrectedValuesRound : Prop :=
  ∀ (cfg : ChannelConfig) (r : Int),
    let x := r * (if 0 ≤ cfg.trim then 250 * cfg.trim else 125 * cfg.trim)
    let gain := correctedRaw cfg r - r - cfg.offset
    2 * (x - gain * 1000000).natAbs ≤ 1000000 ∧
    (2 * (x - gain * 1000000).natAbs = 1000000 → x.natAbs < (gain * 1000000).natAbs) ∧
    judgeInput cfg r true = .openCircuit ∧
    (r < -2000 ∨ 16000 < r → judgeInput cfg r false = .rangeRejected) ∧
    (-2000 ≤ r → r ≤ 16000 →
      (-500 ≤ correctedRaw cfg r → correctedRaw cfg r ≤ 12500 →
        judgeInput cfg r false = .valid (correctedRaw cfg r) false) ∧
      (correctedRaw cfg r < -500 → judgeInput cfg r false = .valid (-500) true) ∧
      (12500 < correctedRaw cfg r → judgeInput cfg r false = .valid 12500 true)) ∧
    ∀ (x : ChannelStats) (c : Int),
      let up (n : Nat) : Nat := if n < 65535 then n + 1 else 65535
      x.count .lost = { x with lost := up x.lost } ∧ x.count .openCircuit = { x with opens := up x.opens } ∧
      x.count .rangeRejected = { x with rejected := up x.rejected } ∧
      x.count (.valid c true) = { x with clamped := up x.clamped } ∧ x.count (.valid c false) = x

/-- R31 to R35 and R39: what each judgement does in each state, with its events. -/
def Obligations.ChannelsFollowHealthRules : Prop :=
  ∀ (p : Parameters) (now step : Nat) (c : Channel),
    let next (j : Judgement) : Sampled := c.sample p now step j
    let good (v : Int) : Channel :=
      { c with
        state := .healthy, cause := none, lastGood := some { value := v, stamp := now, age := 0 }
        candidate := none, lostRun := 0 }
    let failed (d : Channel) (cause : FailureCause) : Channel :=
      { d with state := .failed, cause := some cause, candidate := none }
    let stepped (d : Channel) : Channel :=
      { d with stats := { d.stats with rejected := raise max16 d.stats.rejected } }
    let recovered (d : Channel) : Channel :=
      { d with stats := { d.stats with recovered := raise max16 d.stats.recovered } }
    let lost : Channel := { c with lostRun := raise max8 c.lostRun }
    let empty : Sampled :=
      if p.failTime ≤ lost.lostRun then (failed lost .noData, [(.channelFailed, 1)]) else (lost, [])
    (c.state = .acquiring →
      next .lost = empty ∧ next .rangeRejected = empty ∧ ∀ v b, next (.valid v b) = (good v, [])) ∧
    (c.state = .acquiring ∨ c.state = .healthy ∨ c.state = .suspect →
      next .openCircuit = (failed c .openCircuit, [(.channelFailed, 3)])) ∧
    (c.state = .healthy → next .lost = empty ∧ next .rangeRejected = empty ∧
      ∀ g v b, c.lastGood = some g →
        ((v - g.value).natAbs ≤ step → next (.valid v b) = (good v, [])) ∧
        (step < (v - g.value).natAbs → 2 ≤ p.confirmCount →
          next (.valid v b) =
            ({ stepped c with
                state := .suspect, candidate := some { value := v, tally := 1, suspectAge := 0 }, lostRun := 0 },
              [(.channelSuspect, v)])) ∧
        (step < (v - g.value).natAbs → p.confirmCount = 1 →
          next (.valid v b) = (recovered (stepped (good v)), [(.channelSuspect, v), (.channelRecovered, 1)]))) ∧
    (c.state = .suspect → ∀ g k, c.lastGood = some g → c.candidate = some k →
      let older := raise max8 k.suspectAge
      let stays (d : Channel) (v : Int) (tally : Nat) : Sampled :=
        if p.failTime ≤ older then (failed d .unconfirmed, [(.channelFailed, 2)])
        else ({ d with candidate := some { value := v, tally := tally, suspectAge := older } }, [])
      next .lost = stays lost k.value k.tally ∧ next .rangeRejected = stays lost k.value k.tally ∧
      ∀ v b,
        ((v - g.value).natAbs ≤ step → next (.valid v b) = (good v, [(.channelRecovered, 0)])) ∧
        (step < (v - g.value).natAbs → (v - k.value).natAbs ≤ step →
          (raise 15 k.tally < p.confirmCount →
            next (.valid v b) = stays { c with lostRun := 0 } v (raise 15 k.tally)) ∧
          (p.confirmCount ≤ raise 15 k.tally →
            next (.valid v b) = (recovered (good v), [(.channelRecovered, 1)]))) ∧
        (step < (v - g.value).natAbs → step < (v - k.value).natAbs →
          (2 ≤ p.confirmCount → next (.valid v b) = stays { stepped c with lostRun := 0 } v 1) ∧
          (p.confirmCount = 1 → next (.valid v b) = (recovered (stepped (good v)), [(.channelRecovered, 1)])))) ∧
    (c.state = .failed ∨ c.state = .retired →
      next .openCircuit = (c, []) ∧ next .lost = (lost, []) ∧ next .rangeRejected = (lost, []) ∧
      ∀ v b, next (.valid v b) = ({ c with lostRun := 0 }, []))

/-- R30, R37, R38: what the three channel edits do to a channel they take, and when they refuse one. -/
def Obligations.ChannelEditsApply : Prop :=
  ∀ (s : State) (l : Link) (tag : Byte) (channel : Nat), Ready s l →
    let c := s.channel channel
    let g := s.cfg.generation
    let refused (code : Byte) (r : Result) : Host.Outcome State Fault Refusal :=
      .next (editRefused s l tag code r)
    let fresh : Channel :=
      { c with state := .acquiring, cause := none, lastGood := none, candidate := none, lostRun := 0 }
    let slotReady : State := if slotEnabled s (channel / 8) then s else s.setSlot (channel / 8) .reset
    (96 ≤ channel →
      (∀ form, exec (.defineChannel l tag g channel form) s = refused 0x42 .badArgument) ∧
      exec (.retireChannel l tag g channel) s = refused 0x43 .badArgument ∧
      exec (.returnToService l tag g channel) s = refused 0x44 .badArgument) ∧
    (channel < 96 → c.state = .unused →
      exec (.defineChannel l tag g channel .remove) s = refused 0x42 .notConfigured ∧
      exec (.retireChannel l tag g channel) s = refused 0x43 .notConfigured ∧
      exec (.returnToService l tag g channel) s = refused 0x44 .notConfigured) ∧
    (channel < 96 → ∀ (offset trim : Int) (maxStep : Nat),
      let cfg : ChannelConfig :=
        { offset := max (-500) (min 500 offset), trim := max (-31) (min 31 trim), maxStep := max 1 (min 500 maxStep) }
      exec (.defineChannel l tag g channel (.configuration offset trim maxStep)) s
        = .next
            (edited
              (slotReady.setChannel channel
                (if c.state = .failed ∨ c.state = .retired then { c with config := some cfg }
                 else { fresh with config := some cfg }))
              l tag 0x42
              (if cfg.offset = offset ∧ cfg.trim = trim ∧ cfg.maxStep = maxStep then .ok else .clamped) [])) ∧
    (channel < 96 → c.state ≠ .unused →
      ((∃ x ∈ s.cfg.primaries, x.2 = channel) ∨ (∃ x ∈ s.cfg.alternates, x.2.channel = channel) →
        exec (.defineChannel l tag g channel .remove) s = refused 0x42 .badArgument) ∧
      ((∀ x ∈ s.cfg.primaries, x.2 ≠ channel) → (∀ x ∈ s.cfg.alternates, x.2.channel ≠ channel) →
        exec (.defineChannel l tag g channel .remove) s
          = .next (edited (s.setChannel channel { Channel.unused with stats := c.stats }) l tag 0x42 .ok [])) ∧
      exec (.retireChannel l tag g channel) s
        = .next
            (edited (s.setChannel channel { c with state := .retired, cause := none, candidate := none }) l tag 0x43 .ok
              (if c.state = .retired then [] else [{ kind := .channelRetired, subject := channel, detail := 0 }]))) ∧
    (channel < 96 → c.state = .acquiring ∨ c.state = .healthy ∨ c.state = .suspect →
      exec (.returnToService l tag g channel) s = refused 0x44 .badArgument) ∧
    (channel < 96 → c.state = .failed ∨ c.state = .retired →
      exec (.returnToService l tag g channel) s
        = .next
            (edited (s.setChannel channel fresh) l tag 0x44 .ok
              [{ kind := .channelReturned, subject := channel, detail := if c.state = .retired then 1 else 0 }]))

/-! ## Scanner (chapters 3 and 5) -/

/-- R45: with a valid interleave factor the steps of a sweep visit every sight exactly once. -/
def Obligations.InterleaveVisitsEverySight : Prop :=
  ∀ x : Scanner, interleaveValid x.sightCount x.interleave = true →
    ∀ sight, sight < x.sightCount →
      ∃ n, n < x.sightCount ∧ stepSight x n = sight ∧
        ∀ m, m < x.sightCount → stepSight x m = sight → m = n

/-- R55 and R57: a sweep request by its checks and its table, and a sweep expiry as a request of kind Full. That an
expiry of a stopped counter changes nothing is the model's choice (log entry 5, DESIGN CHOICE, safe). -/
def Obligations.SweepRequestsByTable : Prop :=
  ∀ s : State,
    let slot (t : State) (k : SweepKind) : State := t.withScn { t.scn with pendingSlot := some k }
    let reloaded : State := s.withTmb { s.tmb with sweepCounter := some s.cfg.parameters.sweepPeriod }
    (∀ (l : Link) (tag : Byte), Free s l →
      let sent (arg : SweepKindArg) : Host.Outcome State Fault Refusal := exec (.requestSweep l tag arg) s
      let answer (t : State) (r : Result) : Host.Outcome State Fault Refusal := .next (replied t l tag 0x20 r [])
      let joins (kind : SweepKind) : Prop :=
        s.scn.pendingSlot = some .full ∨ s.scn.pendingSlot = some kind
      (∀ code, sent (.other code) = answer s .badArgument) ∧
      (∀ k, 7 < k → sent (.coil k) = answer s .badArgument) ∧
      (s.scn.sightCount = 0 →
        sent .full = answer s .notConfigured ∧ ∀ k, k ≤ 7 → sent (.coil k) = answer s .notConfigured) ∧
      (0 < s.scn.sightCount → ∀ k, k ≤ 7 → s.coil k = none → sent (.coil k) = answer s .notConfigured) ∧
      (0 < s.scn.sightCount → ∀ arg kind,
        (arg = .full ∧ kind = .full) ∨ (∃ k, k ≤ 7 ∧ (s.coil k).isSome = true ∧ arg = .coil k ∧ kind = .coil k) →
        (s.scn.sweep = none → sent arg = answer (startSweep kind s) .ok) ∧
        (s.scn.sweep.isSome = true → s.scn.pendingSlot = none → sent arg = answer (slot s kind) .ok) ∧
        (s.scn.sweep.isSome = true → joins kind → sent arg = answer s .merged) ∧
        (s.scn.sweep.isSome = true → ∀ j, s.scn.pendingSlot = some (.coil j) →
          (kind = .full → sent arg = answer (slot s .full) .merged) ∧
          (∀ k, kind = .coil k → k ≠ j → sent arg = answer s .scannerBusy)))) ∧
    (s.tmb.sweepCounter = none → exec .sweepExpiry s = .next s) ∧
    (s.tmb.sweepCounter.isSome = true →
      (s.scn.sightCount = 0 →
        exec .sweepExpiry s
          = .next (reloaded.withScn { s.scn with sweepSkips := raise max16 s.scn.sweepSkips })) ∧
      (0 < s.scn.sightCount →
        (s.scn.sweep = none → exec .sweepExpiry s = .next (startSweep .full reloaded)) ∧
        (s.scn.sweep.isSome = true → s.scn.pendingSlot ≠ some .full →
          exec .sweepExpiry s = .next (slot reloaded .full)) ∧
        (s.scn.sweep.isSome = true → s.scn.pendingSlot = some .full → exec .sweepExpiry s = .next reloaded)))

/-- R51, R52, R54, R56: the step a sweep goes to, and what its end leaves. -/
def Obligations.SweepsAdvanceAndEnd : Prop :=
  ∀ (s : State) (x : Sweep) (kind : SweepKind),
    let viewed (k : SweepKind) (n : Nat) : Prop :=
      k = .full ∨ ∃ j cell, k = .coil j ∧
        Table.find s.scn.sights ((n * s.scn.interleave) % s.scn.sightCount) = some cell ∧
        s.coilOfCell cell = some j
    let next (k : SweepKind) (first n : Nat) : Prop :=
      first ≤ n ∧ n < s.scn.sightCount ∧ viewed k n ∧ ∀ m, first ≤ m → m < n → ¬viewed k m
    let spent (k : SweepKind) (first : Nat) : Prop := ∀ m, first ≤ m → m < s.scn.sightCount → ¬viewed k m
    let fresh : Sweep :=
      { kind := kind, nextStep := 0, attempt := 1, taken := 0, discarded := 0, missed := 0, missedRun := 0
        lastFault := none, timeout := 0 }
    let viewing (y : Sweep) (n : Nat) : State :=
      s.withScn
        { s.scn with
          sweep := some { y with nextStep := n, attempt := 1, timeout := s.cfg.parameters.replyTimeout } }
    let closed (y : Sweep) (outcome : SweepOutcome) : State :=
      appendEvent
        (s.withScn
          { s.scn with
            sweep := none
            lastSweep := some
              { kind := y.kind, outcome := outcome, taken := y.taken, discarded := y.discarded, missed := y.missed
                lastFault := y.lastFault, endStamp := s.tmb.heaterClock, clockSet := s.tmb.clockSet } })
        { kind := if outcome = .faulted then .sweepFaulted else .sweepDone
          subject := match y.kind with
            | .full => 255
            | .coil k => k
          detail := match outcome, y.lastFault with
            | .complete, _ => 0
            | .part, _ => 1
            | .cancelled, _ => 2
            | .faulted, some code => code
            | .faulted, none => -1 }
    (∀ n, next kind 0 n → startSweep kind s = viewing fresh n) ∧
    (spent kind 0 → startSweep kind s = closed fresh .complete) ∧
    (∀ n, next x.kind (x.nextStep + 1) n → advanceSweep x s = viewing x n) ∧
    (spent x.kind (x.nextStep + 1) → advanceSweep x s = endSweep x (if x.missed = 0 then .complete else .part) s) ∧
    (∀ outcome, s.scn.pendingSlot = none → endSweep x outcome s = closed x outcome) ∧
    (∀ outcome k, outcome ≠ .cancelled → s.scn.pendingSlot = some k →
      endSweep x outcome s
        = startSweep k ((closed x outcome).withScn { (closed x outcome).scn with pendingSlot := none }))

/-- R48, R49, R53, R101 to R103: a Good Reading, by its sight, its signal and the cell's primary. -/
def Obligations.ReadingsTaken : Prop :=
  ∀ (s : State) (x : Sweep) (sight : Nat) (temperature : Int) (signal : Nat),
    s.scn.sweep = some x → sight = (x.nextStep * s.scn.interleave) % s.scn.sightCount →
    let y := { x with taken := x.taken + 1, missedRun := 0 }
    let outcome := exec (.reading true sight temperature signal) s
    (Table.find s.scn.sights sight = none → outcome = .next (advanceSweep y s)) ∧
    ∀ cell, Table.find s.scn.sights sight = some cell →
      let stored := s.withScn
        { s.scn with
          scans := Table.insert s.scn.scans cell
            { sight := sight, temperature := temperature, signal := signal, stamp := s.tmb.uptime } }
      (signal < s.cfg.parameters.minSignal →
        outcome = .next (advanceSweep { y with discarded := x.discarded + 1 } s)) ∧
      (s.cfg.parameters.minSignal ≤ signal →
        (primaryValue s cell = none → outcome = .next (advanceSweep y stored)) ∧
        ∀ k c, s.coilOfCell cell = some k → primaryValue s cell = some c →
          let d := c - temperature
          let old := s.coilBias k
          let b := movedBias s.cfg.parameters.biasShift old.bias d
          let last (accepted : Bool) (bias : Int) : Comparison :=
            { cell := cell, sight := sight, difference := d, accepted := accepted, bias := bias
              uptime := s.tmb.uptime }
          (s.cfg.parameters.disagreeLimit < d.natAbs →
            outcome = .next
              (advanceSweep y
                (appendEvent
                  (stored.setCoilBias k
                    { bias := old.bias, disagreements := raise max8 old.disagreements
                      last := some (last false old.bias) })
                  { kind := .biasRejected, subject := cell, detail := d }))) ∧
          (d.natAbs ≤ s.cfg.parameters.disagreeLimit →
            outcome = .next
              (advanceSweep y
                (stored.setCoilBias k
                  { bias := b, disagreements := old.disagreements, last := some (last true b) }))))

/-- R48 to R50: a failed attempt is sent again while the Scan Retries allow, else its step is Missed, and the
fourth Missed step in a row faults the sweep; a message that is not intact, or that no View request
awaits, changes nothing. That a Reply Timeout with no sweep changes nothing is the model's choice (log entry 5,
DESIGN CHOICE, safe). -/
def Obligations.FailedAttemptsRetryOrMiss : Prop :=
  ∀ s : State,
    (s.scn.sweep = none → exec .replyTimeout s = .next s ∧
      (∀ intact code, exec (.headFault intact code) s = .next s) ∧
      ∀ intact sight temperature signal, exec (.reading intact sight temperature signal) s = .next s) ∧
    (∀ code, exec (.headFault false code) s = .next s) ∧
    (∀ sight temperature signal, exec (.reading false sight temperature signal) s = .next s) ∧
    ∀ x, s.scn.sweep = some x →
      let after (fault : Option Nat) : State :=
        let y := { x with lastFault := fault }
        let missed := { y with missed := y.missed + 1, missedRun := y.missedRun + 1 }
        if x.attempt ≤ s.cfg.parameters.scanRetries then
          s.withScn
            { s.scn with
              sweep := some { y with attempt := x.attempt + 1, timeout := s.cfg.parameters.replyTimeout } }
        else if x.missedRun < 3 then advanceSweep missed s
        else endSweep missed .faulted s
      exec .replyTimeout s = .next (after x.lastFault) ∧
      (∀ code, exec (.headFault true code) s = .next (after (some code))) ∧
      ∀ sight temperature signal, sight ≠ (x.nextStep * s.scn.interleave) % s.scn.sightCount →
        exec (.reading true sight temperature signal) s = .next (after x.lastFault)

/-- R103: an accepted comparison moves the bias toward the difference and never past it, keeps it within
its bounds, and leaves it where it is inside the standstill band. -/
def Obligations.BiasMovesTowardDifference : Prop :=
  ∀ (shift : Nat) (b d : Int), -1000 ≤ b → b ≤ 1000 →
    let new := movedBias shift b d
    new ≤ 1000 ∧ -1000 ≤ new ∧
    (b ≤ d → b ≤ new ∧ new ≤ d) ∧ (d ≤ b → d ≤ new ∧ new ≤ b) ∧
    ((d - b).natAbs < 2 ^ shift → new = b) ∧
    (2 ^ shift ≤ (d - b).natAbs → -1000 < b → b < 1000 → new ≠ b) ∧
    (shift = 0 → new = max (-1000) (min 1000 d))

/-- R46, R47 and R59: the sight edits, with the checks of each, and Cancel Sweep. -/
def Obligations.SightEditsAndCancel : Prop :=
  ∀ (s : State) (l : Link) (tag : Byte), Ready s l →
    let g := s.cfg.generation
    let valid (count factor : Nat) : Prop := 1 ≤ factor ∧ factor ≤ max 1 (count - 1) ∧ Nat.gcd factor count = 1
    (∀ factor,
      (s.scn.sweep.isSome = true →
        exec (.setInterleave l tag g factor) s = .next (editRefused s l tag 0x4A .scannerBusy)) ∧
      (s.scn.sweep = none → ¬valid s.scn.sightCount factor →
        exec (.setInterleave l tag g factor) s = .next (editRefused s l tag 0x4A .badArgument)) ∧
      (s.scn.sweep = none → valid s.scn.sightCount factor →
        exec (.setInterleave l tag g factor) s
          = .next (edited (s.withScn { s.scn with interleave := factor }) l tag 0x4A .ok []))) ∧
    (TablesCanonical s → ∀ count first entries,
      let refused (r : Result) : Prop :=
        exec (.defineSights l tag g count first entries) s = .next (editRefused s l tag 0x49 r)
      let inside : Prop := entries = [] ∨ first + entries.length ≤ count
      let named : Prop := ∀ cell, some cell ∈ entries → cell ≤ 2047
      let inUse : Prop := ∀ cell, some cell ∈ entries → s.inUse cell = true
      (s.scn.sweep.isSome = true → refused .scannerBusy) ∧
      (s.scn.sweep = none → (512 < count ∨ ¬inside ∨ ¬named) → refused .badArgument) ∧
      (s.scn.sweep = none → count ≤ 512 → inside → named → ¬inUse → refused .notConfigured) ∧
      (s.scn.sweep = none → count ≤ 512 → inside → named → inUse → ¬valid count s.scn.interleave →
        refused .badArgument) ∧
      (s.scn.sweep = none → count ≤ 512 → inside → named → inUse → valid count s.scn.interleave →
        ∃ sights scans,
          exec (.defineSights l tag g count first entries) s
            = .next
                (edited (s.withScn { s.scn with sightCount := count, sights := sights, scans := scans }) l tag 0x49
                  .ok []) ∧
          (∀ n, Table.find sights n =
            if count ≤ n then none
            else if first ≤ n ∧ n < first + entries.length then (entries[n - first]?).join
            else Table.find s.scn.sights n) ∧
          ∀ cell x, Table.find scans cell = some x ↔
            Table.find s.scn.scans cell = some x ∧ Table.find sights x.sight = Table.find s.scn.sights x.sight)) ∧
    (s.scn.sweep = none → exec (.cancelSweep l tag) s = .next (replied s l tag 0x32 .ok [])) ∧
    ∀ x, s.scn.sweep = some x →
      exec (.cancelSweep l tag) s
        = .next
            (replied
              (appendEvent
                (s.withScn
                  { s.scn with
                    sweep := none, pendingSlot := none
                    lastSweep := some
                      { kind := x.kind, outcome := .cancelled, taken := x.taken, discarded := x.discarded
                        missed := x.missed, lastFault := x.lastFault, endStamp := s.tmb.heaterClock
                        clockSet := s.tmb.clockSet } })
                { kind := .sweepDone, detail := 2, subject := match x.kind with
                  | .full => 255
                  | .coil k => k })
              l tag 0x32 .ok [])

/-! ## Mapping (chapters 4 and 6) -/

/-- R67, R68 and R69: when Start Mapping and Stop Mapping are taken, refused or held. -/
def Obligations.MappingStartsAndStops : Prop :=
  ∀ (s : State) (l : Link) (tag : Byte), Ready s l →
    (s.map.mapState ≠ .stopped → exec (.startMapping l tag) s = .next (replied s l tag 0x30 .wrongState [])) ∧
    (s.map.mapState = .stopped → s.cfg.coils = [] →
      exec (.startMapping l tag) s = .next (replied s l tag 0x30 .notConfigured [])) ∧
    (s.map.mapState = .stopped → s.cfg.coils ≠ [] →
      exec (.startMapping l tag) s
        = .next
            (replied
              { s with
                map := { s.map with cells := [], establishCount := 0, mapState := .establishing }
                alm := { s.alm with windows := [] }
                tmb := { s.tmb with passCounter := some s.cfg.parameters.passPeriod } }
              l tag 0x30 .ok [])) ∧
    (s.map.mapState = .stopped → exec (.stopMapping l tag) s = .next (replied s l tag 0x31 .wrongState [])) ∧
    (s.map.mapState ≠ .stopped → s.map.pass = none →
      exec (.stopMapping l tag) s = .next (replied (stopTakesEffect l none s) l tag 0x31 .ok [])) ∧
    (s.map.mapState ≠ .stopped → s.map.pass.isSome = true →
      exec (.stopMapping l tag) s
        = .next
            (heldOn
              (if s.map.stopPending = none then s.withMap { s.map with stopPending := some l } else s)
              l tag 0x31))

/-- R69: all that a stop does when it takes effect, in the order of its events, whether or not it abandons
a pass. -/
def Obligations.StopTakesWholeEffect : Prop :=
  ∀ (s : State) (setter : Link) (walking : Option Pass), TablesCanonical s →
    let t := stopTakesEffect setter walking s
    let passNotes : List Note := match walking with
      | some p => [{ kind := .passAbandoned, subject := p.coil, detail := 2 }]
      | none => []
    let sweepNotes : List Note := match s.scn.sweep with
      | some x => [{ kind := .sweepDone, detail := 2, subject := match x.kind with
          | .full => 255
          | .coil k => k }]
      | none => []
    let stopNote : Note :=
      { kind := .mappingStopped, detail := if walking.isSome then 1 else 0, subject := match setter with
        | .a => 0
        | .b => 1
        | .e => 2 }
    t = { s with tmb := t.tmb, scn := t.scn, map := t.map, alm := t.alm, evt := t.evt, lnk := t.lnk } ∧
    t.evt = (appendEvents s (passNotes ++ sweepNotes ++ [stopNote])).evt ∧
    t.tmb = { s.tmb with passCounter := none } ∧
    (s.scn.sweep = none → t.scn = s.scn) ∧
    (∀ x, s.scn.sweep = some x →
      t.scn =
        { s.scn with
          sweep := none, pendingSlot := none
          lastSweep := some
            { kind := x.kind, outcome := .cancelled, taken := x.taken, discarded := x.discarded, missed := x.missed
              lastFault := x.lastFault, endStamp := s.tmb.heaterClock, clockSet := s.tmb.clockSet } }) ∧
    (walking = none → t.map = { s.map with mapState := .stopped, stopPending := none }) ∧
    (∀ p, walking = some p →
      t.map =
        { s.map with
          mapState := .stopped, stopPending := none, pass := none, establishCount := 0
          lastPass := some
            { number := p.number, completed := false, reason := some .stop, generation := p.generation
              tubesWritten := p.tubesWritten, wideGaps := p.wideGaps, unanchored := none
              endStamp := s.tmb.heaterClock, clockSet := s.tmb.clockSet, endUptime := s.tmb.uptime } }) ∧
    t.alm =
      { s.alm with records := t.alm.records, hotList := [], hotPass := s.map.lastCompleted, limitOutput := false } ∧
    (∀ n, t.alarm n = { AlarmRecord.reset with occurrence := (s.alarm n).occurrence }) ∧
    JoinedAnswered s t [0x31] setter []

/-- R70, R71, R86: a pass expiry starts a pass, is an overrun or is dropped; no tube is written in a hand-off;
its end clears the pass, after the evaluation when the map is established, and lets a pending stop take effect.
That an expiry of a stopped counter, a hand-off with none under way and a tube step in Handing off change nothing is
the model's choice (log entry 5, DESIGN CHOICE, safe), and so is a start without its first tube step, which is a
command of its own (log entry 27, DEDUCED, safe). -/
def Obligations.PassExpiriesAndHandOffs : Prop :=
  ∀ s : State,
    let reloaded : State := s.withTmb { s.tmb with passCounter := some s.cfg.parameters.passPeriod }
    let number := if s.map.passNumber = 4294967295 then 1 else s.map.passNumber + 1
    (s.tmb.passCounter = none → exec .passExpiry s = .next s) ∧
    (s.tmb.passCounter.isSome = true →
      (∀ k c rest, s.map.pass = none → s.cfg.coils = (k, c) :: rest →
        exec .passExpiry s
          = .next (reloaded.withMap
              { s.map with
                passNumber := number
                pass := some
                  { number := number, generation := s.cfg.generation, phase := .walking, coil := k, tube := 0
                    tubesWritten := 0, wideGaps := 0, anchored := 0 } })) ∧
      (∀ p, s.map.pass = some p → s.map.stopPending = none →
        exec .passExpiry s
          = .next (appendEvent (reloaded.withMap { s.map with overruns := raise max16 s.map.overruns })
              { kind := .passOverrun, subject := p.coil, detail := (raise max16 s.map.overruns : Nat) })) ∧
      (s.map.pass.isSome = true → s.map.stopPending.isSome = true → exec .passExpiry s = .next reloaded)) ∧
    ((s.map.pass = none ∨ ∃ p, s.map.pass = some p ∧ p.phase = .walking) → exec .handOffEvaluation s = .next s) ∧
    ∀ p, s.map.pass = some p → p.phase = .handingOff →
      let judged := if s.map.mapState = .mapping
        then evaluatePass p.number ((s.map.lastPass.map LastPass.endUptime).getD 0) s else s
      let idle := judged.withMap { s.map with pass := none }
      exec .tubeStep s = .next s ∧
      (s.map.stopPending = none → exec .handOffEvaluation s = .next idle) ∧
      ∀ l, s.map.stopPending = some l → exec .handOffEvaluation s = .next (stopTakesEffect l none idle)

/-- R74 to R76, R79, R80, R107, R109, R114: the tube write of a tube step: each cell's record by the five steps of
its evaluation (a direct source, fill, hold), its peak and its accumulator, and every other cell as it was. The age
of a scan record is the uptime less its stamp (log entry 26, DEDUCED, safe). -/
def Obligations.TubeStepWritesTube : Prop :=
  ∀ (s : State) (p : Pass) (c : CoilDef), TablesCanonical s →
    s.map.pass = some p → p.phase = .walking → s.map.stopPending = none → p.generation = s.cfg.generation →
    s.coil p.coil = some c →
    let anchors := tubeAnchors s p.coil c.dims p.tube
    let cellAt (e : Nat) : Nat := baseCell s.geometry p.coil + p.tube * c.elevations + e
    let serves (channel : Nat) (v : Int) : Prop :=
      (s.channel channel).state = .healthy ∧
        ∃ g, (s.channel channel).lastGood = some g ∧ g.age ≤ 2 ∧ g.value = v
    let clamped (v : Int) : Int := max (-500) (min 12500 v)
    let primary (n : Nat) (d : Direct) : Prop :=
      ∃ channel v, Table.find s.cfg.primaries n = some channel ∧ serves channel v ∧
        d = { value := v, quality := .measured, source := channel }
    let alternate (n : Nat) (d : Direct) : Prop :=
      ∃ x v, Table.find s.cfg.alternates n = some x ∧ serves x.channel v ∧
        d = { value := clamped (v + x.offset), quality := .substituted, source := x.channel }
    let scan (n : Nat) (d : Direct) : Prop :=
      ∃ x, Table.find s.scn.scans n = some x ∧ s.tmb.uptime - x.stamp ≤ s.cfg.parameters.scanAgeLimit ∧
        d = { value := clamped (x.temperature + (s.coilBias p.coil).bias), quality := .scanned, source := x.sight }
    let direct (n : Nat) (d : Direct) : Prop :=
      primary n d ∨ ((∀ x, ¬primary n x) ∧ (alternate n d ∨ ((∀ x, ¬alternate n x) ∧ scan n d)))
    let fresh (v : Int) (q : Quality) (source : Option Nat) : CellRecord :=
      { value := some v, quality := q, source := source, passStamp := p.number, heldAge := 0 }
    anchors.length = c.elevations ∧
    (∀ e, e < c.elevations → ∀ d, anchorAt anchors e = some d ↔ direct (cellAt e) d) ∧
    ∃ t, exec .tubeStep s = .next t ∧
      t = { s with map := t.map, evt := t.evt } ∧
      t.map = { s.map with
                cells := t.map.cells, peaks := t.map.peaks, exposure := t.map.exposure, pass := t.map.pass
                mapState := t.map.mapState, establishCount := t.map.establishCount
                lastCompleted := t.map.lastCompleted, lastPass := t.map.lastPass } ∧
      (∀ e, e < c.elevations →
        let n := cellAt e
        let old := s.cell n
        let new := t.cell n
        let fill := filled s.cfg.parameters.maxGap anchors e
        let neighbours := neighbourFill s p.coil c.dims p.tube e
        let credit := match new.value with
          | some v => s.cfg.parameters.passPeriod * multiplier c.design c.step v
          | none => 0
        new = evaluateCell s p.number p.coil c.dims p.tube anchors e ∧
        (∀ d, direct n d → new = fresh d.value d.quality (some d.source)) ∧
        ((∀ d, ¬direct n d) →
          (∀ v q, fill = some (v, q) → new = fresh v q none) ∧
          (∀ v, fill = none → neighbours = some v → new = fresh v .neighbour none) ∧
          (fill = none → neighbours = none →
            (old.value = none →
              new = { value := none, quality := .empty, source := none, passStamp := 0, heldAge := 0 }) ∧
            ∀ v, old.value = some v →
              let age := if old.heldAge < 255 then old.heldAge + 1 else 255
              new =
                { value := some v, quality := if age ≤ s.cfg.parameters.holdLimit then .held else .stale
                  source := none, passStamp := old.passStamp, heldAge := age })) ∧
        t.accumulator n = min (s.accumulator n + credit) 4294967295 ∧
        (∀ v, new.value = some v → new.quality.atLeast 2 = true →
          (∀ old, s.peak n = some old → old.value < v) →
          t.peak n = some { value := v, stamp := s.tmb.heaterClock, pass := p.number }) ∧
        (new.value = none ∨ new.quality.atLeast 2 = false ∨
            (∃ v old, new.value = some v ∧ s.peak n = some old ∧ v ≤ old.value) →
          t.peak n = s.peak n)) ∧
      ∀ n, (∀ e, e < c.elevations → n ≠ cellAt e) →
        t.cell n = s.cell n ∧ t.peak n = s.peak n ∧ t.accumulator n = s.accumulator n

/-- R73, R83 to R85: how a tube step moves the pass on, abandons it or completes it. That the next tube of the pass
record stays the last tube written in phase Handing off is the model's reading (log entry 16, DEDUCED, unsafe). -/
def Obligations.TubeStepMovesOrEndsPass : Prop :=
  ∀ (s : State) (p : Pass), s.map.pass = some p → p.phase = .walking →
    let record (completed : Bool) (reason : Option AbandonReason) (q : Pass) (unanchored : Option CoilSet) : LastPass :=
      { number := q.number, completed := completed, reason := reason, generation := q.generation
        tubesWritten := q.tubesWritten, wideGaps := q.wideGaps, unanchored := unanchored
        endStamp := s.tmb.heaterClock, clockSet := s.tmb.clockSet, endUptime := s.tmb.uptime }
    (∀ l, s.map.stopPending = some l → exec .tubeStep s = .next (stopTakesEffect l (some p) s)) ∧
    (s.map.stopPending = none → p.generation ≠ s.cfg.generation →
      exec .tubeStep s
        = .next (appendEvent
            (s.withMap
              { s.map with
                pass := none, establishCount := 0, lastPass := some (record false (some .generation) p none) })
            { kind := .passAbandoned, subject := p.coil, detail := 1 })) ∧
    (s.map.stopPending = none → p.generation = s.cfg.generation → ∀ c, s.coil p.coil = some c →
      let anchors := tubeAnchors s p.coil c.dims p.tube
      let q : Pass :=
        { p with
          tubesWritten := p.tubesWritten + 1
          wideGaps := min (p.wideGaps + wideGaps s.cfg.parameters.maxGap anchors) 65535
          anchored := if anchors.any (·.isSome) then p.anchored ||| oneCoil p.coil else p.anchored }
      let written := writeTube p.number p.coil c p.tube s
      let missing := coilSet s.geometry &&& ~~~q.anchored
      let count := if missing = 0 then raise max8 s.map.establishCount else 0
      let completed := written.withMap
        { written.map with
          pass := some { q with phase := .handingOff }, lastCompleted := p.number, establishCount := count
          lastPass := some (record true none q (some missing)) }
      (p.tube + 1 < c.tubes →
        exec .tubeStep s = .next (written.withMap { written.map with pass := some { q with tube := p.tube + 1 } })) ∧
      (∀ k, c.tubes ≤ p.tube + 1 → coilAfter s.geometry p.coil = some k →
        exec .tubeStep s
          = .next (written.withMap { written.map with pass := some { q with coil := k, tube := 0 } })) ∧
      (c.tubes ≤ p.tube + 1 → coilAfter s.geometry p.coil = none →
        (s.map.mapState = .establishing → s.cfg.parameters.establishPasses ≤ count →
          exec .tubeStep s
            = .next (appendEvent (completed.withMap { completed.map with mapState := .mapping })
                { kind := .mapEstablished, subject := 0, detail := count })) ∧
        ((s.map.mapState ≠ .establishing ∨ count < s.cfg.parameters.establishPasses) →
          exec .tubeStep s = .next completed)))

/-- R77 to R79: what interpolation gives between two anchors and extension beyond the last, within Max Gap, which
anchors they draw on, which gaps are wide, and what neighbour fill gives from which neighbours. Every rounding takes
an exact half away from zero. -/
def Obligations.FillStaysBetweenAnchors : Prop :=
  (∀ (anchors : List (Option Direct)) (e maxGap : Nat),
    let anchored (j : Nat) (v : Int) : Prop := ∃ d, anchorAt anchors j = some d ∧ d.value = v
    let bare (j : Nat) : Prop := anchorAt anchors j = none
    let below (j : Nat) (v : Int) : Prop := j < e ∧ anchored j v ∧ ∀ i, j < i → i < e → bare i
    let above (j : Nat) (v : Int) : Prop := e < j ∧ anchored j v ∧ ∀ i, e < i → i < j → bare i
    let noneBelow : Prop := ∀ i, i < e → bare i
    let noneAbove : Prop := ∀ i, e < i → bare i
    let wide (j : Nat) : Prop :=
      ∃ k v w, anchored j v ∧ anchored k w ∧ j < k ∧ (∀ i, j < i → i < k → bare i) ∧ maxGap < k - j - 1
    (∀ j v, (anchorBelow anchors e = some (j, v) ↔ below j v) ∧ (anchorAbove anchors e = some (j, v) ↔ above j v)) ∧
    (∀ j v k w, below j v → above k w →
      (k - j - 1 ≤ maxGap → filled maxGap anchors e = some (interpolated (j, v) (k, w) e, .interpolated)) ∧
      (maxGap < k - j - 1 → filled maxGap anchors e = none)) ∧
    (∀ j v, below j v → noneAbove →
      (e - j ≤ maxGap → filled maxGap anchors e = some (v, .extended)) ∧
      (maxGap < e - j → filled maxGap anchors e = none)) ∧
    (∀ k w, noneBelow → above k w →
      (k - e ≤ maxGap → filled maxGap anchors e = some (w, .extended)) ∧
      (maxGap < k - e → filled maxGap anchors e = none)) ∧
    (noneBelow → noneAbove → filled maxGap anchors e = none) ∧
    ∃ gaps : List Nat, gaps.Nodup ∧ (∀ j, j ∈ gaps ↔ wide j) ∧ wideGaps maxGap anchors = gaps.length) ∧
  (∀ (low high : Nat × Int) (e : Nat), low.1 < e → e < high.1 →
    let v := interpolated low high e
    let span := high.1 - low.1
    let rise : Int := (high.2 - low.2) * (e - low.1 : Nat)
    min low.2 high.2 ≤ v ∧ v ≤ max low.2 high.2 ∧
      2 * ((v - low.2) * span - rise).natAbs ≤ span ∧
      (2 * ((v - low.2) * span - rise).natAbs = span → rise.natAbs < ((v - low.2) * span).natAbs)) ∧
  (∀ c v, eligibleValue c = some v ↔
    c.value = some v ∧
      (c.quality = .measured ∨ c.quality = .substituted ∨ c.quality = .scanned ∨ c.quality = .interpolated)) ∧
  (∀ (s : State) (k t e : Nat) (d : Dims), t < d.tubes →
    let side (u : Nat) : Option Int := eligibleValue (s.cell (baseCell s.geometry k + u * d.elevations + e))
    neighbourFill s k d t e
      = neighbourValue (if t = 0 then none else side (t - 1)) (if t + 1 < d.tubes then side (t + 1) else none)) ∧
  neighbourValue none none = none ∧
  ∀ v w : Int,
    neighbourValue (some v) none = some v ∧ neighbourValue none (some w) = some w ∧
    ∃ x, neighbourValue (some v) (some w) = some x ∧ min v w ≤ x ∧ x ≤ max v w ∧ (2 * x - (v + w)).natAbs ≤ 1 ∧
      ((2 * x - (v + w)).natAbs = 1 → (v + w).natAbs < (2 * x).natAbs)

/-- R108: the multiplier is 0 up to the design metal temperature, and above it 2 to the number of whole steps
of excess, 15 at most. -/
def Obligations.MultiplierDoublesEachStep : Prop :=
  ∀ (design step : Nat) (v : Int), 0 < step →
    (v ≤ design → multiplier design step v = 0) ∧
    (∀ q : Nat, (design : Int) < v → (q : Int) * step ≤ v - design → v - design < ((q : Int) + 1) * step →
      multiplier design step v = 2 ^ min q 15)

/-- R112 and R116: the clears empty the cells of their coil, or all, and change no other cell. -/
def Obligations.ClearsEmptyTheirCoil : Prop :=
  ∀ (s : State) (l : Link) (tag : Byte), Free s l →
    (s.holdsRights l = false →
      (∀ k, exec (.clearExposure l tag k) s = .next (replied s l tag 0x34 .notPermitted [])) ∧
      ∀ form, exec (.clearPeaks l tag form) s = .next (replied s l tag 0x33 .notPermitted [])) ∧
    (s.holdsRights l = true →
      (∀ k, 7 < k →
        exec (.clearExposure l tag k) s = .next (replied s l tag 0x34 .badArgument []) ∧
        exec (.clearPeaks l tag (.coil k)) s = .next (replied s l tag 0x33 .badArgument [])) ∧
      (∀ k, k ≤ 7 → s.coil k = none →
        exec (.clearExposure l tag k) s = .next (replied s l tag 0x34 .notConfigured []) ∧
        exec (.clearPeaks l tag (.coil k)) s = .next (replied s l tag 0x33 .notConfigured [])) ∧
      exec (.clearPeaks l tag .all) s = .next (replied (s.withMap { s.map with peaks := [] }) l tag 0x33 .ok []) ∧
      (TablesCanonical s → ∀ k c, k ≤ 7 → s.coil k = some c →
        let first := baseCell s.geometry k
        let inside (n : Nat) : Prop := first ≤ n ∧ n < first + c.tubes * c.elevations
        (∃ peaks,
          exec (.clearPeaks l tag (.coil k)) s
            = .next (replied (s.withMap { s.map with peaks := peaks }) l tag 0x33 .ok []) ∧
          ∀ n, (inside n → Table.find peaks n = none) ∧ (¬inside n → Table.find peaks n = Table.find s.map.peaks n)) ∧
        ∃ exposure,
          exec (.clearExposure l tag k) s
            = .next
                (replied
                  (appendEvent (s.withMap { s.map with exposure := exposure })
                    { kind := .exposureCleared, subject := k
                      detail := (((List.range' first (c.tubes * c.elevations)).filter fun n =>
                        decide (0 < s.accumulator n)).length : Nat) })
                  l tag 0x34 .ok []) ∧
          ∀ n, (inside n → Table.get 0 exposure n = 0) ∧ (¬inside n → Table.get 0 exposure n = s.accumulator n)))

/-! ## Geometry and anchors (chapters 1 and 5) -/

/-- R2 and R3: every cell number in use names exactly one coil, tube and elevation, and every place of a
Defined coil is one cell number. -/
def Obligations.CellsNumberPlaces : Prop :=
  ∀ g : Geometry, Table.rising g = true →
    (∀ n, n < cellTotal g → ∃ p d, placeOf g n = some p ∧ Table.find g p.coil = some d ∧ p.tube < d.tubes ∧
      p.elevation < d.elevations ∧ baseCell g p.coil + p.tube * d.elevations + p.elevation = n) ∧
    (∀ n, cellTotal g ≤ n → placeOf g n = none) ∧
    ∀ k d t e, Table.find g k = some d → t < d.tubes → e < d.elevations →
      placeOf g (baseCell g k + t * d.elevations + e) = some { coil := k, tube := t, elevation := e }

/-- R4 to R10, R16, R93, R100: the coil edits: what they refuse for, and what a taken one keeps, blanks and drops. A
read of exposure in progress takes the tubes it has left and is answered before the edit is applied; that it sees the
heater as it was before the edit, and not after, is the model's choice (log entry 32, DESIGN CHOICE, unsafe). -/
def Obligations.CoilEditsKeepCells : Prop :=
  ∀ (s : State) (l : Link) (tag : Byte) (k : Nat), Ready s l →
    let g := s.cfg.generation
    let quiet : Prop := s.map.mapState = .stopped ∧ k ≤ 7 ∧ s.frz.freeze = none ∧ s.scn.sweep = none
    let deleted := exec (.deleteCoil l tag g k) s
    let entry (tubes elevations design step : Nat) : CoilDef :=
      { tubes := tubes, elevations := elevations, design := max 5000 (min 12000 design), step := max 50 (min 300 step) }
    (∀ tubes elevations design step,
      let x := entry tubes elevations design step
      let sent := exec (.defineCoil l tag g k tubes elevations design step) s
      let sizes : Prop := 1 ≤ tubes ∧ tubes ≤ 64 ∧ 1 ≤ elevations ∧ elevations ≤ 8
      let total := cellTotal (geometryOf (Table.insert s.cfg.coils k x))
      (s.map.mapState ≠ .stopped → sent = .next (editRefused s l tag 0x40 .wrongState)) ∧
      (s.map.mapState = .stopped → 7 < k ∨ ¬sizes → sent = .next (editRefused s l tag 0x40 .badArgument)) ∧
      (s.map.mapState = .stopped → k ≤ 7 → sizes →
        (s.frz.freeze.isSome = true → sent = .next (editRefused s l tag 0x40 .busy)) ∧
        (s.frz.freeze = none → s.scn.sweep.isSome = true →
          sent = .next (editRefused s l tag 0x40 .scannerBusy))) ∧
      (quiet → sizes → 2048 < total → sent = .next (editRefused s l tag 0x40 .capacity)) ∧
      (quiet → sizes → total ≤ 2048 →
        sent = .next
          (edited (applyCoilEdit k (some x) (finishReads s)) l tag 0x40
            (if x.design = design ∧ x.step = step then .ok else .clamped) []))) ∧
    (s.map.mapState ≠ .stopped → deleted = .next (editRefused s l tag 0x41 .wrongState)) ∧
    (s.map.mapState = .stopped → 7 < k → deleted = .next (editRefused s l tag 0x41 .badArgument)) ∧
    (s.map.mapState = .stopped → k ≤ 7 → s.coil k = none →
      deleted = .next (editRefused s l tag 0x41 .notConfigured)) ∧
    (s.map.mapState = .stopped → k ≤ 7 → (s.coil k).isSome = true →
      (s.frz.freeze.isSome = true → deleted = .next (editRefused s l tag 0x41 .busy)) ∧
      (s.frz.freeze = none → s.scn.sweep.isSome = true →
        deleted = .next (editRefused s l tag 0x41 .scannerBusy))) ∧
    (quiet → (s.coil k).isSome = true →
      deleted = .next (edited (applyCoilEdit k none (finishReads s)) l tag 0x41 .ok [])) ∧
    (let u := finishReads s;
      u = { s with map := u.map, lnk := u.lnk } ∧
      u.map = { s.map with reads := { a := none, b := none, e := none } } ∧
      u.lnk = { s.lnk with links := u.lnk.links } ∧
      ∀ m,
        (s.map.reads.get m = none → u.lnk.links.get m = s.lnk.links.get m) ∧
        ∀ x, s.map.reads.get m = some x → ReadAnswered s u m (tookTube s x x.left.flatten [])) ∧
    (TablesCanonical s → ∀ change : Option CoilDef,
      let t := applyCoilEdit k change s
      let kept (n : Nat) : Bool := cellKept s.geometry t.geometry n
      t = { s with cfg := t.cfg, map := t.map, scn := t.scn, alm := t.alm, frz := t.frz } ∧
      t.cfg = { s.cfg with coils := t.cfg.coils, primaries := t.cfg.primaries, alternates := t.cfg.alternates } ∧
      t.map =
        { s.map with
          cells := t.map.cells, peaks := t.map.peaks, exposure := t.map.exposure
          retainedGeometry := t.map.retainedGeometry } ∧
      t.scn = { s.scn with scans := t.scn.scans, sights := t.scn.sights, biases := t.scn.biases } ∧
      t.alm =
        { s.alm with
          zones := t.alm.zones, records := t.alm.records, windows := t.alm.windows, figures := t.alm.figures } ∧
      t.frz =
        { s.frz with cellCopies := t.frz.cellCopies, peakCopies := t.frz.peakCopies, header := t.frz.header } ∧
      (∀ j, t.coil j = if j = k then change else s.coil j) ∧
      t.map.retainedGeometry = t.geometry ∧
      (∀ n, kept n = true →
        t.cell n = s.cell n ∧ t.peak n = s.peak n ∧ t.accumulator n = s.accumulator n ∧
        Table.find t.scn.scans n = Table.find s.scn.scans n ∧
        Table.find t.cfg.primaries n = Table.find s.cfg.primaries n) ∧
      (∀ n, kept n = false →
        t.cell n = .blank ∧ t.peak n = none ∧ t.accumulator n = 0 ∧ Table.find t.scn.scans n = none ∧
        Table.find t.cfg.primaries n = none ∧ Table.find t.cfg.alternates n = none) ∧
      (∀ n x, Table.find t.cfg.alternates n = some x ↔
        kept n = true ∧ Table.find s.cfg.alternates n = some x ∧ releaseCause t n x = none) ∧
      (∀ n cell, Table.find t.scn.sights n = some cell ↔
        Table.find s.scn.sights n = some cell ∧ kept cell = true) ∧
      (∀ j, t.coilBias j = if j = k then .reset else s.coilBias j) ∧
      (∀ n z, t.zone n = some z ↔
        s.zone n = some z ∧ ∃ c, t.coil z.coil = some c ∧ z.highTube < c.tubes ∧ z.highElevation < c.elevations) ∧
      (∀ n, (s.zone n).isSome = true → t.zone n = none →
        t.alarm n = (s.alarm n).toNormal ∧ t.window n = [] ∧ Table.find t.alm.figures n = none) ∧
      (∀ n, t.zone n = s.zone n →
        t.alarm n = s.alarm n ∧ t.window n = s.window n ∧
        Table.find t.alm.figures n = Table.find s.alm.figures n) ∧
      ((∀ n, n < max s.cellTotal t.cellTotal → kept n = true) → t.frz = s.frz) ∧
      ((∃ n, n < max s.cellTotal t.cellTotal ∧ kept n = false) →
        t.frz.header = none ∧ t.frz.cellCopies = [] ∧ t.frz.peakCopies = []))

/-- R89 to R96, R98: the anchor and alternate edits with the checks of each, the dependence rule, and what a release
by that rule drops and reports. -/
def Obligations.AnchorEditsByDependence : Prop :=
  let onTube (t : State) (n m : Nat) : Prop :=
    ∃ here there, placeOf t.geometry n = some here ∧ placeOf t.geometry m = some there ∧
      there.coil = here.coil ∧ there.tube = here.tube ∧ there.elevation ≠ here.elevation
  let released (n cause : Nat) (x : Alternate) : Note :=
    { kind := .alternateReleased, subject := n, detail := (x.channel : Int) + 128 * cause }
  (∀ (t : State) (n : Nat) (x : Alternate),
    (releaseCause t n x = some 1 ↔ Table.find t.cfg.primaries n = none) ∧
    (releaseCause t n x = none ↔
      (Table.find t.cfg.primaries n).isSome = true ∧ ∃ m, (m, x.channel) ∈ t.cfg.primaries ∧ onTube t n m) ∧
    (releaseCause t n x ≠ none → releaseCause t n x ≠ some 1 → releaseCause t n x = some 2)) ∧
  (∀ t : State, Table.rising t.cfg.alternates = true →
    let after := releaseDependents t
    after = t.withCfg { t.cfg with alternates := after.cfg.alternates } ∧
    (∀ n x, Table.find after.cfg.alternates n = some x ↔
      Table.find t.cfg.alternates n = some x ∧ releaseCause t n x = none) ∧
    (∀ note, note ∈ dependenceNotes t ↔
      ∃ n x cause, Table.find t.cfg.alternates n = some x ∧ releaseCause t n x = some cause ∧
        note = released n cause x) ∧
    (dependenceNotes t).Pairwise fun first second => first.subject < second.subject) ∧
  ∀ (s : State) (l : Link) (tag : Byte) (cell channel : Nat), TablesCanonical s → Ready s l →
    let g := s.cfg.generation
    let assign := exec (.assignAnchor l tag g cell channel) s
    let release := exec (.releaseAnchor l tag g cell) s
    let alternate (offset : Int) : Host.Outcome State Fault Refusal :=
      exec (.assignAlternate l tag g cell channel offset) s
    let drop := exec (.releaseAlternate l tag g cell) s
    let refused (code : Byte) (r : Result) : Host.Outcome State Fault Refusal :=
      .next (editRefused s l tag code r)
    let state := (s.channel channel).state
    (2047 < cell → assign = refused 0x45 .badArgument ∧ release = refused 0x46 .badArgument ∧
      drop = refused 0x48 .badArgument) ∧
    (2047 < cell ∨ 95 < channel → ∀ offset, alternate offset = refused 0x47 .badArgument) ∧
    (cell ≤ 2047 → s.inUse cell = false →
      assign = refused 0x45 .notConfigured ∧ release = refused 0x46 .notConfigured ∧
      drop = refused 0x48 .notConfigured ∧
      (channel ≤ 95 → ∀ offset, alternate offset = refused 0x47 .notConfigured)) ∧
    (cell ≤ 2047 → s.inUse cell = true →
      (95 < channel → assign = refused 0x45 .badArgument) ∧
      (channel ≤ 95 → state = .unused → assign = refused 0x45 .notConfigured) ∧
      (channel ≤ 95 → state ≠ .unused →
        let t := s.withCfg { s.cfg with primaries := movePrimary s.cfg.primaries cell channel }
        (∀ n, Table.find t.cfg.primaries n =
          if n = cell then some channel
          else (Table.find s.cfg.primaries n).bind fun x => if x = channel then none else some x) ∧
        assign = .next (edited (releaseDependents t) l tag 0x45 .ok (dependenceNotes t))) ∧
      (Table.find s.cfg.primaries cell = none →
        release = refused 0x46 .notConfigured ∧
        (channel ≤ 95 → ∀ offset, alternate offset = refused 0x47 .primaryInService)) ∧
      ((Table.find s.cfg.primaries cell).isSome = true →
        let t := s.withCfg { s.cfg with primaries := Table.erase s.cfg.primaries cell }
        release = .next (edited (releaseDependents t) l tag 0x46 .ok (dependenceNotes t))) ∧
      (∀ offset : Int, ∀ primary, Table.find s.cfg.primaries cell = some primary → channel ≤ 95 →
        let clamped := max (-500) (min 500 offset)
        let outOfService (n : Nat) : Prop := (s.channel n).state = .failed ∨ (s.channel n).state = .retired
        (¬outOfService primary → alternate offset = refused 0x47 .primaryInService) ∧
        (outOfService primary → state = .unused ∨ outOfService channel →
          alternate offset = refused 0x47 .alternateBad) ∧
        (outOfService primary → state ≠ .unused → ¬outOfService channel →
          ((∃ x ∈ s.cfg.alternates, x.2.channel = channel) →
            alternate offset = refused 0x47 .alternateInUse) ∧
          ((∀ x ∈ s.cfg.alternates, x.2.channel ≠ channel) →
            ((∀ m, (m, channel) ∈ s.cfg.primaries → ¬onTube s cell m) →
              alternate offset = refused 0x47 .badArgument) ∧
            ((∃ m, (m, channel) ∈ s.cfg.primaries ∧ onTube s cell m) →
              alternate offset = .next
                (edited
                  (s.withCfg
                    { s.cfg with
                      alternates := Table.insert s.cfg.alternates cell { channel := channel, offset := clamped } })
                  l tag 0x47 (if clamped = offset then .ok else .clamped)
                  (((Table.find s.cfg.alternates cell).map (released cell 3)).toList
                    ++ [{ kind := .alternateAssigned, subject := cell, detail := channel }])))))) ∧
      (Table.find s.cfg.alternates cell = none → drop = refused 0x48 .notConfigured) ∧
      ∀ x, Table.find s.cfg.alternates cell = some x →
        drop = .next
          (edited (s.withCfg { s.cfg with alternates := Table.erase s.cfg.alternates cell }) l tag 0x48 .ok
            [released cell 0 x]))

/-! ## Zones and alarms (chapter 7) -/

/-- R132 and R136: the tables of Latching and of Repeating mode, row by row, with the event of each row. That a
raising from Normal or ClearedUnacked empties the acknowledged set is the model's choice (log entry 22, DESIGN CHOICE,
safe). -/
def Obligations.AlarmTablesFollowed : Prop :=
  ∀ (z : Zone) (cond : CondSet) (r : AlarmRecord),
    let event (k : EventKind) (d : Int) : Option (EventKind × Int) := some (k, d)
    let codes : Int := 65536 * (cond.toNat : Int)
    let next := if r.occurrence < 65535 then r.occurrence + 1 else 0
    let normal : AlarmRecord :=
      { state := .normal, conditions := 0, raised := 0, acknowledged := 0, occurrence := r.occurrence
        acks := { a := false, b := false }, repeatCount := 0 }
    let raised : AlarmRecord :=
      { r with
        state := .activeUnacked, conditions := cond, raised := cond, acknowledged := 0, occurrence := next
        acks := { a := false, b := false } }
    let raises : Prop := alarmStep z cond r = (raised, event .alarmRaised (next + codes))
    let stays : Prop := alarmStep z cond r = (r, none)
    r.occurrence ≤ 65535 →
    (z.mode = .latching →
      (r.state = .normal → (cond = 0 → stays) ∧ (cond ≠ 0 → raises)) ∧
      (r.state = .activeUnacked →
        (cond ≠ 0 → alarmStep z cond r = ({ r with conditions := cond, raised := r.raised ||| cond }, none)) ∧
        (cond = 0 →
          alarmStep z cond r
            = ({ r with state := .clearedUnacked, conditions := 0 }, event .alarmCleared (r.occurrence + 65536)))) ∧
      (r.state = .activeAcked →
        (cond = 0 → alarmStep z cond r = (normal, event .alarmCleared r.occurrence)) ∧
        (cond ≠ 0 → cond &&& ~~~r.acknowledged = 0 → alarmStep z cond r = ({ r with conditions := cond }, none)) ∧
        (cond &&& ~~~r.acknowledged ≠ 0 → raises)) ∧
      (r.state = .clearedUnacked → (cond = 0 → stays) ∧ (cond ≠ 0 → raises))) ∧
    (z.mode = .repeating →
      (r.state = .normal →
        (cond = 0 → stays) ∧
        (cond ≠ 0 →
          alarmStep z cond r
            = ({ r with state := .active, conditions := cond, raised := cond, occurrence := next, repeatCount := 0 },
                event .alarmRepeat (next + codes)))) ∧
      (r.state = .active →
        (cond = 0 → alarmStep z cond r = (normal, event .alarmCleared r.occurrence)) ∧
        (cond ≠ 0 → r.repeatCount + 1 < z.repeatInterval →
          alarmStep z cond r
            = ({ r with conditions := cond, raised := r.raised ||| cond, repeatCount := r.repeatCount + 1 }, none)) ∧
        (cond ≠ 0 → z.repeatInterval ≤ r.repeatCount + 1 →
          alarmStep z cond r
            = ({ r with conditions := cond, raised := r.raised ||| cond, repeatCount := 0 },
                event .alarmRepeat (r.occurrence + codes)))))

/-- R126, R127, R129, R130: when a limit, the spread, the rate and the quality hold, with their deadbands, the rate
itself, and the condition set of a zone, judged from the set before. -/
def Obligations.ZoneConditionsJudged : Prop :=
  (∀ (held : Bool) (limit : Int) (deadband : Nat),
    limitHolds held limit deadband none = false ∧
    ∀ v, limitHolds held limit deadband (some v) = true ↔
      (held = false ∧ limit < v) ∨ (held = true ∧ limit - deadband < v)) ∧
  (∀ (held : Bool) (limit deadband trusted : Nat) (hi lo : Int),
    spreadHolds held limit deadband trusted none none = false ∧
    (spreadHolds held limit deadband trusted (some hi) (some lo) = true ↔
      2 ≤ trusted ∧ ((held = false ∧ limit < hi - lo) ∨ (held = true ∧ (limit : Int) - deadband < hi - lo)))) ∧
  (∀ (window : List RateEntry) (w endUptime : Nat) (v : Int), 1 ≤ w →
    (window.length < w → rateOf window w (some v) endUptime = none) ∧
    rateOf window w none endUptime = none ∧
    ∀ older base newer, window = older ++ base :: newer → newer.length + 1 = w →
      (base.maximum = none ∨ endUptime ≤ base.endUptime → rateOf window w (some v) endUptime = none) ∧
      ∀ u, base.maximum = some u → base.endUptime < endUptime →
        ∃ r, rateOf window w (some v) endUptime = some r ∧
          let time : Int := (endUptime : Int) - base.endUptime
          (r * time).natAbs ≤ ((v - u) * 60).natAbs ∧ ((v - u) * 60 - r * time).natAbs < time.natAbs ∧
          0 ≤ r * (v - u)) ∧
  (∀ (limit : Nat) (r : Int), rateHolds limit none = false ∧ (rateHolds limit (some r) = true ↔ (limit : Int) < r)) ∧
  ∀ (z : Zone) (before : CondSet) (f : ZoneFigures),
    let holds (c : CondSet) : Prop := judgeConditions z before f &&& c ≠ 0
    let held (c : CondSet) : Bool := decide (before &&& c ≠ 0)
    (holds 1 ↔ z.enabled &&& 1 ≠ 0 ∧ limitHolds (held 1) z.highLimit z.deadband f.maximum = true) ∧
    (holds 2 ↔ z.enabled &&& 2 ≠ 0 ∧ limitHolds (held 2) z.highHighLimit z.deadband f.maximum = true) ∧
    (holds 4 ↔ z.enabled &&& 4 ≠ 0 ∧
      spreadHolds (held 4) z.spreadLimit z.deadband f.trusted f.maximum f.minimum = true) ∧
    (holds 8 ↔ z.enabled &&& 8 ≠ 0 ∧ rateHolds z.rateLimit f.rate = true) ∧
    (holds 16 ↔ z.enabled &&& 16 ≠ 0 ∧ z.qualityCount < f.lowQuality)

/-- R125, R128, R138 to R140: the evaluation of a completed pass: the figures of every Defined zone from the cells
of its ranges, its record and window, the events in ascending zone number, the limit output, and the hot tube
list of the pass. That the rate is among the figures whether or not Rate is enabled is the model's reading (log entry
24, DEDUCED, unsafe). -/
def Obligations.EvaluationJudgesEveryZone : Prop :=
  ∀ (s : State) (pass endUptime : Nat), TablesCanonical s →
    let t := evaluatePass pass endUptime s
    let figures (n : Nat) (z : Zone) : ZoneFigures := zoneFigures s n z pass endUptime
    let moved (n : Nat) (z : Zone) : Evaluated :=
      alarmStep z (judgeConditions z (s.alarm n).conditions (figures n z)) (s.alarm n)
    let trusted (z : Zone) (v : Int) : Prop :=
      ∃ c u e, s.coil z.coil = some c ∧ z.lowTube ≤ u ∧ u ≤ z.highTube ∧ z.lowElevation ≤ e ∧ e ≤ z.highElevation ∧
        let cell := s.cell (baseCell s.geometry z.coil + u * c.elevations + e)
        cell.value = some v ∧ cell.quality.atLeast 2 = true
    (∀ n z v,
      ((figures n z).maximum = some v ↔ trusted z v ∧ ∀ w, trusted z w → w ≤ v) ∧
      ((figures n z).minimum = some v ↔ trusted z v ∧ ∀ w, trusted z w → v ≤ w)) ∧
    (∀ n z,
      let listed := (zoneList s z).map s.cell
      (figures n z).trusted
        = (listed.filter fun c =>
            decide (2 ≤ qualityCode c.quality ∧ qualityCode c.quality ≤ 7 ∧ c.value.isSome = true)).length ∧
      (figures n z).lowQuality
        = (listed.filter fun c => decide (c.quality = .empty ∨ qualityCode c.quality < z.qualityFloor)).length ∧
      (figures n z).rate = rateOf (s.window n) z.rateWindow (figures n z).maximum endUptime ∧
      (figures n z).pass = pass) ∧
    t = { s with alm := t.alm, evt := t.evt } ∧
    t.alm.zones = s.alm.zones ∧
    (∀ n z, s.zone n = some z →
      t.alarm n = (moved n z).1 ∧ Table.find t.alm.figures n = some (figures n z) ∧
      t.window n =
        (if (s.window n).length < 16 then s.window n else (s.window n).tail)
          ++ [{ pass := pass, maximum := (figures n z).maximum, endUptime := endUptime }]) ∧
    (∀ n, s.zone n = none →
      t.alarm n = s.alarm n ∧ t.window n = s.window n ∧
      Table.find t.alm.figures n = Table.find s.alm.figures n) ∧
    t.evt = (appendEvents s (s.alm.zones.filterMap fun x =>
      (moved x.1 x.2).2.map fun y => { kind := y.1, subject := x.1, detail := y.2 })).evt ∧
    (t.alm.limitOutput = true ↔
      s.map.mapState = .mapping ∧ ∃ n z, s.zone n = some z ∧ z.enabled &&& condHighHigh ≠ 0 ∧
        (t.alarm n).conditions &&& condHighHigh ≠ 0) ∧
    t.alm.hotList = hotListOf s ∧ t.alm.hotPass = pass

/-- R139: the hot tube list that an evaluation builds holds the first 16 candidates, value highest first and then
by cell number. -/
def Obligations.HotListHoldsHottest : Prop :=
  ∀ s : State, TablesCanonical s →
    let listed := hotListOf s
    let candidate (x : HotEntry) : Prop :=
      s.inUse x.cell = true ∧ (s.cell x.cell).value = some x.value ∧ (s.cell x.cell).quality = x.quality ∧
        (s.cell x.cell).passStamp = x.passStamp ∧ x.quality.atLeast 2 = true ∧
        s.cfg.parameters.watchThreshold ≤ x.value
    let precedes (x y : HotEntry) : Prop := y.value < x.value ∨ (x.value = y.value ∧ x.cell < y.cell)
    (∀ pass endUptime, (evaluatePass pass endUptime s).alm.hotList = listed) ∧
    listed.length ≤ 16 ∧ (∀ x ∈ listed, candidate x) ∧ listed.Pairwise precedes ∧
    ∀ y, candidate y → y ∉ listed → listed.length = 16 ∧ ∀ x ∈ listed, precedes x y

/-- R133 and R134: how an acknowledgement is judged, and what a taken one does; Link E may send none. The state byte of
a Repeating record in its reply is the model's choice (log entry 35, DESIGN CHOICE, unsafe). -/
def Obligations.AcknowledgeByRecord : Prop :=
  ∀ (s : State) (l : Link) (tag : Byte) (zone occurrence : Nat), Free s l →
    let r := s.alarm zone
    let sent := exec (.acknowledge l tag zone occurrence) s
    let answer (t : State) (result : Result) (x : AlarmRecord) : Host.Outcome State Fault Refusal :=
      .next (replied t l tag 0x24 result (enc8 x.state.position ++ enc16 x.occurrence ++ x.acks.encode))
    let stored (x : AlarmRecord) : State :=
      s.withAlm { s.alm with records := Table.put .reset s.alm.records zone x }
    let acked (x : AlarmRecord) : State :=
      appendEvent (stored x)
        { kind := .alarmAcked, subject := zone, detail := (r.occurrence : Int) + 65536 * (if l = .a then 1 else 2) }
    let acks : AckSet := { a := r.acks.a || decide (l = .a), b := r.acks.b || decide (l = .b) }
    let normal : AlarmRecord :=
      { state := .normal, conditions := 0, raised := 0, acknowledged := 0, occurrence := r.occurrence
        acks := { a := false, b := false }, repeatCount := 0 }
    (l = .e → sent = .next (replied s l tag 0x24 .notPermitted [])) ∧
    (l ≠ .e → 31 < zone → sent = .next (replied s l tag 0x24 .badArgument [])) ∧
    (l ≠ .e → zone ≤ 31 → s.zone zone = none → sent = .next (replied s l tag 0x24 .notConfigured [])) ∧
    (l ≠ .e → zone ≤ 31 → ∀ z, s.zone zone = some z →
      let complete : Prop := match z.ackPolicy with
        | .either => acks.a = true ∨ acks.b = true
        | .both => acks.a = true ∧ acks.b = true
      (z.mode = .repeating ∨ r.state = .normal → sent = answer s .nothingToAck r) ∧
      (z.mode = .latching → r.state ≠ .normal → occurrence ≠ r.occurrence → sent = answer s .staleOccurrence r) ∧
      (TablesCanonical s → z.mode = .latching → occurrence = r.occurrence →
        (r.state = .activeUnacked → complete →
          let x := { r with state := .activeAcked, acks := acks, acknowledged := r.raised }
          sent = answer (acked x) .ok x) ∧
        (r.state = .clearedUnacked → complete → sent = answer (acked normal) .ok normal) ∧
        ((r.state = .activeAcked ∨ ((r.state = .activeUnacked ∨ r.state = .clearedUnacked) ∧ ¬complete)) →
          sent = answer (stored { r with acks := acks }) .ok { r with acks := acks })))

/-- R123 and R124: the zone edits, their checks and clamps, and what a taken one returns to Normal. -/
def Obligations.ZoneEditsApply : Prop :=
  ∀ (s : State) (l : Link) (tag : Byte) (zone : Nat), TablesCanonical s → Ready s l →
    let g := s.cfg.generation
    let applied (z : Option Zone) (t : State) : Prop :=
      t = s.withAlm { t.alm with hotList := s.alm.hotList, hotPass := s.alm.hotPass } ∧
      (∀ n, t.zone n = if n = zone then z else s.zone n) ∧
      (∀ n, t.alarm n =
        if n = zone then { AlarmRecord.reset with occurrence := (s.alarm n).occurrence } else s.alarm n) ∧
      (∀ n, t.window n = if n = zone then [] else s.window n) ∧
      (∀ n, Table.find t.alm.figures n = if n = zone then none else Table.find s.alm.figures n) ∧
      (t.alm.limitOutput = true ↔
        s.map.mapState = .mapping ∧ ∃ n y, t.zone n = some y ∧ y.enabled &&& condHighHigh ≠ 0 ∧
          (t.alarm n).conditions &&& condHighHigh ≠ 0)
    (31 < zone →
      (∀ args, exec (.defineZone l tag g zone args) s = .next (editRefused s l tag 0x4B .badArgument)) ∧
      exec (.deleteZone l tag g zone) s = .next (editRefused s l tag 0x4C .badArgument)) ∧
    (∀ args : ZoneArgs, zone ≤ 31 → 7 < args.coil →
      exec (.defineZone l tag g zone args) s = .next (editRefused s l tag 0x4B .badArgument)) ∧
    (zone ≤ 31 → s.zone zone = none →
      exec (.deleteZone l tag g zone) s = .next (editRefused s l tag 0x4C .notConfigured)) ∧
    (zone ≤ 31 → (s.zone zone).isSome = true →
      ∃ t, exec (.deleteZone l tag g zone) s = .next (edited t l tag 0x4C .ok []) ∧ applied none t) ∧
    (zone ≤ 31 → ∀ args : ZoneArgs, args.coil ≤ 7 →
      let sent := exec (.defineZone l tag g zone args) s
      (s.coil args.coil = none → sent = .next (editRefused s l tag 0x4B .notConfigured)) ∧
      ∀ c, s.coil args.coil = some c →
        let fits : Prop :=
          args.lowTube ≤ args.highTube ∧ args.highTube < c.tubes ∧
            args.lowElevation ≤ args.highElevation ∧ args.highElevation < c.elevations
        (¬fits ∨ 1 < args.mode ∨ 1 < args.ackPolicy → sent = .next (editRefused s l tag 0x4B .badArgument)) ∧
        (fits → args.mode ≤ 1 → args.ackPolicy ≤ 1 →
          let z : Zone :=
            { coil := args.coil, lowTube := args.lowTube, highTube := args.highTube
              lowElevation := args.lowElevation, highElevation := args.highElevation, enabled := args.enabled
              highLimit := max (-500) (min 12500 args.highLimit)
              highHighLimit := max (-500) (min 12500 args.highHighLimit)
              spreadLimit := min 3000 args.spreadLimit, rateLimit := max 1 (min 5000 args.rateLimit)
              rateWindow := max 1 (min 15 args.rateWindow), qualityFloor := max 1 (min 7 args.qualityFloor)
              qualityCount := min 255 args.qualityCount, deadband := min 500 args.deadband
              mode := if args.mode = 0 then .latching else .repeating
              repeatInterval := max 1 (min 255 args.repeatInterval)
              ackPolicy := if args.ackPolicy = 0 then .either else .both }
          let exact : Prop :=
            z.highLimit = args.highLimit ∧ z.highHighLimit = args.highHighLimit ∧ z.spreadLimit = args.spreadLimit ∧
              z.rateLimit = args.rateLimit ∧ z.rateWindow = args.rateWindow ∧ z.qualityFloor = args.qualityFloor ∧
              z.qualityCount = args.qualityCount ∧ z.deadband = args.deadband ∧
              z.repeatInterval = args.repeatInterval
          ∃ t, applied (some z) t ∧
            (exact → sent = .next (edited t l tag 0x4B .ok [])) ∧
            (¬exact → sent = .next (edited t l tag 0x4B .clamped []))))

/-! ## Freezes (chapter 8) -/

/-- R142 to R146: how a freeze starts, is joined, copies a tube and completes. That a tube copy after the walk and a
completion before its end change nothing is the model's choice (log entry 5, DESIGN CHOICE, safe), and that a freeze
with no coil Defined completes within the action of its request its reading (log entry 18, DEDUCED, unsafe). -/
def Obligations.FreezesCopyAndComplete : Prop :=
  ∀ (s : State) (l : Link) (tag : Byte),
    let filled (f : Freeze) (t : State) : Prop :=
      let number := if s.frz.freezeNumber = 4294967295 then 1 else s.frz.freezeNumber + 1
      t = { s with frz := t.frz, evt := t.evt, lnk := t.lnk } ∧
      t.frz.freeze = none ∧ t.frz.freezeNumber = number ∧
      t.frz.header = some
        { hotList := s.alm.hotList, hotPass := s.alm.hotPass, watchThreshold := s.cfg.parameters.watchThreshold
          zonesDefined := s.alm.zones.map (·.1), records := s.alm.records, figures := s.alm.figures
          mapState := s.map.mapState, lastCompleted := s.map.lastCompleted, limitOutput := s.alm.limitOutput
          heaterClock := s.tmb.heaterClock, clockSet := s.tmb.clockSet, uptime := s.tmb.uptime
          generation := s.cfg.generation, freezeNumber := number } ∧
      (∀ n, Table.get .blank t.frz.cellCopies n =
        if n < s.cellTotal then Table.get .blank s.frz.cellCopies n else .blank) ∧
      (∀ n, Table.find t.frz.peakCopies n =
        if n < s.cellTotal then Table.find s.frz.peakCopies n else none) ∧
      t.evt = (appendEvent s
        { kind := .freezeTaken, detail := if f.clearing then 1 else 0, subject := match f.starter with
          | .a => 0
          | .b => 1
          | .e => 2 }).evt
    let reply (number clock : Nat) : List Byte := enc32 number ++ enc32 clock
    (∀ clearing : Bool, Free s l → (clearing = true → s.holdsRights l = true) →
      let i : Instr := if clearing then .freezeAndClearPeaks l tag else .freezeMap l tag
      let code : Byte := if clearing then 0x35 else 0x21
      (s.frz.freeze = none →
        (∀ k c rest, s.cfg.coils = (k, c) :: rest →
          exec i s
            = .next
                (heldOn (s.withFrz
                  { s.frz with freeze := some { clearing := clearing, starter := l, next := some (k, 0) } })
                  l tag code)) ∧
        (s.cfg.coils = [] → ∃ t, filled { clearing := clearing, starter := l, next := none } t ∧ t.lnk = s.lnk ∧
          exec i s = .next (replied t l tag code .ok (reply t.frz.freezeNumber s.tmb.heaterClock)))) ∧
      ∀ f, s.frz.freeze = some f →
        (clearing = true → f.clearing = false → exec i s = .next (replied s l tag code .busy [])) ∧
        (clearing = false ∨ f.clearing = true → exec i s = .next (heldOn s l tag code))) ∧
    (TablesCanonical s → ∀ f k u c, s.frz.freeze = some f → f.next = some (k, u) → s.coil k = some c →
      let copied (n : Nat) : Prop := ∃ e, e < c.elevations ∧ n = baseCell s.geometry k + u * c.elevations + e
      ∃ t, exec .tubeCopy s = .next t ∧
        t = { s with frz := t.frz, map := t.map } ∧
        t.map = { s.map with peaks := t.map.peaks } ∧
        t.frz =
          { s.frz with
            cellCopies := t.frz.cellCopies, peakCopies := t.frz.peakCopies
            freeze := some
              { f with
                next := if u + 1 < c.tubes then some (k, u + 1)
                  else (coilAfter s.geometry k).map fun j => (j, 0) } } ∧
        (∀ n, copied n →
          Table.get .blank t.frz.cellCopies n = s.cell n ∧ Table.find t.frz.peakCopies n = s.peak n ∧
          t.peak n = if f.clearing then none else s.peak n) ∧
        ∀ n, ¬copied n →
          Table.get .blank t.frz.cellCopies n = Table.get .blank s.frz.cellCopies n ∧
          Table.find t.frz.peakCopies n = Table.find s.frz.peakCopies n ∧ t.peak n = s.peak n) ∧
    ∀ f, s.frz.freeze = some f →
      (f.next.isSome = true → exec .freezeCompletion s = .next s) ∧
      (f.next = none → exec .tubeCopy s = .next s ∧
        ∃ t, exec .freezeCompletion s = .next t ∧ filled f t ∧
          JoinedAnswered s t [0x21, 0x35] f.starter (reply t.frz.freezeNumber s.tmb.heaterClock))

/-! ## Reads -/

/-- R16, R113, R118 to R121: a Read Exposure and a Zone Exposure Total that are taken part their cells by tube, take
the first tube in their own action, and are answered there when it is the only one, or else held; a step with no
command waiting takes the next tube of every read in progress, as its cells then stand, and answers a read after its
last tube. When the further tubes are taken is the model's choice (log entries 3, safe, and 32, unsafe, DESIGN
CHOICE), and so is that a count of 0 is refused last (log entry 31, DESIGN CHOICE, unsafe). -/
def Obligations.ExposureReadsTakeTubes : Prop :=
  (∀ (s : State) (l : Link) (tag : Byte), Free s l → CoilsFit s.cfg.coils →
    let begins (i : Instr) (code : Byte) (reply : ExposureReply) (cells : List Nat) : Prop :=
      ∃ first rest, PartedByTube s cells (first :: rest) ∧
        let x := tookTube s { reply := reply, left := first :: rest, taken := [] } first rest
        (rest = [] →
          ∃ result bytes, ReadReplies x result bytes ∧ exec i s = .next (replied s l tag code result bytes)) ∧
        (rest ≠ [] →
          exec i s
            = .next (heldOn (s.withMap { s.map with reads := s.map.reads.set l (some x) }) l tag code))
    (∀ first count, first < s.cellTotal → 1 ≤ count →
      let cells := coveredBy 32 s.cellTotal first count
      begins (.readExposure l tag first count) 0x0F
        (.cells (decide (cells.length ≠ count))
          ((List.range 8).filterMap fun k =>
            if ∃ n ∈ cells, s.coilOfCell n = some k then (s.coil k).map fun c => (c.design, c.step) else none))
        cells) ∧
    ∀ n z c resume, n ≤ 31 → s.zone n = some z → s.coil z.coil = some c →
      z.highTube < c.tubes → z.highElevation < c.elevations → resume < (zoneList s z).length →
      begins (.zoneExposureTotal l tag n resume) 0x10
        (.total n resume (if resume + 256 < (zoneList s z).length then some (resume + 256) else none)
          s.cfg.generation)
        (((zoneList s z).drop resume).take 256)) ∧
  ∀ s : State, s.pending = [] →
    ∃ t, step s = .next t ∧
      t = { s with map := t.map, lnk := t.lnk } ∧
      t.map = { s.map with reads := t.map.reads } ∧
      t.lnk = { s.lnk with links := t.lnk.links } ∧
      ∀ l,
        (s.map.reads.get l = none → t.map.reads.get l = none ∧ t.lnk.links.get l = s.lnk.links.get l) ∧
        ∀ x tube rest, s.map.reads.get l = some x → x.left = tube :: rest →
          let y := tookTube s x tube rest
          (rest ≠ [] → t.map.reads.get l = some y ∧ t.lnk.links.get l = s.lnk.links.get l) ∧
          (rest = [] → ReadAnswered s t l y)

/-- Which result Check Store and each read but Read Events (the statement ReadEventsFromCursor) is answered with, the
bytes that its reply carries, and that it changes nothing but its link's queue and last refusal; the two clearing
options zero their counters, with edit rights only, and Read Status with Auto Clear on is in the statement
FlagCommandsActOnTheirLink (R11, R41, R42, R63, R64, R88, R99, R105, R118 to R120, R141, R147 to R150, R170, R174,
R176, R178, R182). The two reads of exposure are answered so once their tubes are taken with no command between them,
as no command waits and no other such read is in progress. The bytes rest on the model's readings of log entries 12,
19, 25, 26 and 28 (DEDUCED) and its choices of 29, 33, 34, 35 (DESIGN CHOICE), the order of two refusals on log entries
21 and 31 (DESIGN CHOICE), and when tubes are taken on log entries 3 and 32 (DESIGN CHOICE). -/
def Obligations.ReadsOnlyReply : Prop :=
  ∀ (s : State) (l : Link) (tag : Byte), Free s l →
    let gives (i : Instr) (code : Byte) (r : Result) (payload : List Byte) : Prop :=
      exec i s = .next (replied s l tag code r (if r.isRefusal then [] else payload))
    let refuses (i : Instr) (code : Byte) (r : Result) : Prop := exec i s = .next (replied s l tag code r [])
    let comesTo (i : Instr) (code : Byte) (r : Result) (payload : List Byte) : Prop :=
      s.pending = [] → (∀ k, s.map.reads.get k = none) →
        ∃ n t, exec i s = .next t ∧ stepsTo n t (replied s l tag code r payload)
    let generation := enc16 s.cfg.generation
    let ranged (limit stop first count : Nat) : Result :=
      if limit < count ∨ stop < first + count then .clamped else .ok
    let byNumber (limit stop first count : Nat) : Result :=
      if stop ≤ first ∨ count = 0 then .badArgument else ranged limit stop first count
    let byCell (first count : Nat) : Result :=
      if 2047 < first then .badArgument else if s.cellTotal ≤ first then .notConfigured
      else if count = 0 then .badArgument else ranged 32 s.cellTotal first count
    let cellRange := coveredBy 32 s.cellTotal
    let frozen (r : Result) : Result :=
      if s.frz.freeze.isSome then .busy else if s.frz.header.isNone then .notConfigured else r
    let cells (k start count : Nat) : Result :=
      match s.coil k with
      | none => .notConfigured
      | some c =>
        if c.tubes * c.elevations ≤ start ∨ count = 0 then .badArgument
        else if 32 < count ∨ c.tubes * c.elevations < count then .clamped else .ok
    ((s.evt.links.get l).autoClear = false → gives (.readStatus l tag) 0x01 .ok (statusBytes s l)) ∧
    gives (.readCoilTable l tag) 0x02 .ok ((List.range 8).flatMap (coilBytes s) ++ enc16 s.cellTotal ++ generation) ∧
    gives (.readMapStatus l tag) 0x06 .ok (mapBytes s) ∧
    gives (.readModuleStatus l tag) 0x09 .ok ((List.range 12).flatMap (slotBytes s)) ∧
    gives (.readSweepStatus l tag) 0x0A .ok (sweepBytes s) ∧
    gives (.readBias l tag false) 0x0E .ok (biasBytes s) ∧
    gives (.readParameters l tag) 0x12 .ok (parameterBytes s) ∧
    (s.holdsRights l = true → gives (.checkStore l tag) 0x39 .ok (storeBytes s)) ∧
    (∀ n, gives (.readChannel l tag n) 0x07 (if n < 96 then .ok else .badArgument) (channelBytes s n)) ∧
    (∀ first count,
      gives (.readChannelStatistics l tag first count false) 0x08 (byNumber 32 96 first count)
        ((coveredBy 32 96 first count).flatMap (counterBytes s))) ∧
    (∀ first count,
      gives (.readSights l tag first count) 0x0B
        (if 511 < first then .badArgument else if s.scn.sightCount ≤ first then .notConfigured
         else if count = 0 then .badArgument else ranged 128 s.scn.sightCount first count)
        ((coveredBy 128 s.scn.sightCount first count).flatMap fun n =>
          encOption enc16 (Table.find s.scn.sights n))) ∧
    (∀ first count,
      gives (.readScanRecords l tag first count) 0x0C (byCell first count)
        ((cellRange first count).flatMap (scanBytes s)) ∧
      gives (.readAnchors l tag (.byCell first count)) 0x0D (byCell first count)
        ((cellRange first count).flatMap (anchorBytes s) ++ generation) ∧
      gives (.readAnchors l tag (.byChannel first count)) 0x0D (byNumber 32 96 first count)
        ((coveredBy 32 96 first count).flatMap (assignedBytes s) ++ generation) ∧
      let exposure := byCell first count
      (exposure.isRefusal = true → refuses (.readExposure l tag first count) 0x0F exposure) ∧
      (exposure.isRefusal = false →
        comesTo (.readExposure l tag first count) 0x0F exposure (exposureBytes s (cellRange first count)))) ∧
    (∀ n resume,
      let i : Instr := .zoneExposureTotal l tag n resume
      (31 < n → refuses i 0x10 .badArgument) ∧
      (n ≤ 31 → s.zone n = none → refuses i 0x10 .notConfigured) ∧
      ∀ z, n ≤ 31 → s.zone n = some z →
        let list := zoneList s z
        (list.length ≤ resume → refuses i 0x10 .badArgument) ∧
        (resume < list.length →
          ∃ before greatest later,
            (list.drop resume).take 256 = before ++ greatest :: later ∧
            (∀ m ∈ before, s.accumulator m < s.accumulator greatest) ∧
            (∀ m ∈ later, s.accumulator m ≤ s.accumulator greatest) ∧
            comesTo i 0x10 (if resume + 256 < list.length then .incomplete else .ok)
              (totalBytes s n resume list greatest))) ∧
    (∀ first count,
      gives (.readZones l tag 0 first count) 0x05 (byNumber 8 32 first count)
        ((coveredBy 8 32 first count).flatMap (zoneBytes s) ++ encBool (decide (s.map.mapState = .mapping))
          ++ encBool s.alm.limitOutput ++ generation) ∧
      (s.frz.header = none → refuses (.readZones l tag 1 first count) 0x05 (frozen .notConfigured)) ∧
      (∀ h, s.frz.header = some h →
        gives (.readZones l tag 1 first count) 0x05 (frozen (byNumber 8 32 first count))
          ((coveredBy 8 32 first count).flatMap (frozenZoneBytes h) ++ encBool (decide (h.mapState = .mapping))
            ++ encBool h.limitOutput ++ enc16 h.generation ++ enc32 h.freezeNumber)) ∧
      ∀ source, 1 < source → refuses (.readZones l tag source first count) 0x05 .badArgument) ∧
    gives (.readHotList l tag 0) 0x04 .ok
      (hotListBytes s.alm.hotList s.alm.hotPass s.cfg.parameters.watchThreshold) ∧
    (s.frz.header = none → refuses (.readHotList l tag 1) 0x04 (frozen .notConfigured)) ∧
    (∀ h, s.frz.header = some h →
      gives (.readHotList l tag 1) 0x04 (frozen .ok)
        (hotListBytes h.hotList h.hotPass h.watchThreshold ++ enc32 h.freezeNumber ++ enc32 h.heaterClock)) ∧
    (∀ source, 1 < source → refuses (.readHotList l tag source) 0x04 .badArgument) ∧
    (∀ source k start count, 1 < source ∨ 7 < k →
      refuses (.readCells l tag source k start count) 0x03 .badArgument) ∧
    (∀ k start count, k ≤ 7 →
      gives (.readCells l tag 0 k start count) 0x03 (cells k start count)
        (enc8 s.map.mapState.position ++ enc32 s.map.passNumber ++ enc32 s.map.lastCompleted ++ generation
          ++ cellsBytes s k start count s.cell s.peak) ∧
      (s.frz.header = none → refuses (.readCells l tag 1 k start count) 0x03 (frozen .notConfigured)) ∧
      ∀ h, s.frz.header = some h →
        gives (.readCells l tag 1 k start count) 0x03 (frozen (cells k start count))
          (enc32 h.freezeNumber ++ enc32 h.heaterClock ++ encBool h.clockSet ++ enc8 h.mapState.position
            ++ enc32 h.lastCompleted
            ++ cellsBytes s k start count (Table.get .blank s.frz.cellCopies) (Table.find s.frz.peakCopies))) ∧
    (s.holdsRights l = false →
      refuses (.readBias l tag true) 0x0E .notPermitted ∧
      ∀ first count,
        refuses (.readChannelStatistics l tag first count true) 0x08
          (if 96 ≤ first ∨ count = 0 then .badArgument else .notPermitted)) ∧
    (s.holdsRights l = true → TablesCanonical s →
      (∃ t, exec (.readBias l tag true) s = .next (replied t l tag 0x0E .ok (biasBytes s)) ∧
        t = s.withScn { s.scn with biases := t.scn.biases } ∧
        ∀ k, t.coilBias k = if k < 8 then { s.coilBias k with disagreements := 0 } else s.coilBias k) ∧
      ∀ first count,
        (96 ≤ first ∨ count = 0 → refuses (.readChannelStatistics l tag first count true) 0x08 .badArgument) ∧
        (first < 96 → 1 ≤ count →
          ∃ t,
            exec (.readChannelStatistics l tag first count true) s
              = .next
                  (replied t l tag 0x08 (ranged 32 96 first count)
                    ((coveredBy 32 96 first count).flatMap (counterBytes s))) ∧
            t = s.withAcq { s.acq with channels := t.acq.channels } ∧
            ∀ n, t.channel n =
              if n ∈ coveredBy 32 96 first count then { s.channel n with stats := .zero } else s.channel n))

/-! ## What every step keeps -/

/-- Every table stays in its one canonical form, which is the model's own (log entry 30, DEDUCED, safe). -/
def Obligations.TablesStayCanonical : Prop :=
  ∀ s t : State, TablesCanonical s → step s = .next t → TablesCanonical t

/-- R1 to R3, R5, R9, R16, R44, R67, R72, R122: the geometry, the walk, the zones, the reads in progress and everything
kept per cell go on agreeing, so that no coil edit falls within a read of exposure. -/
def Obligations.CellsStayInGeometry : Prop :=
  ∀ s t : State, TablesCanonical s → CellsFitGeometry s → step s = .next t → CellsFitGeometry t

/-- R13, R76: every cell that is not Empty holds a value of the map range, and an Empty one holds none. -/
def Obligations.MapValuesStayInRange : Prop :=
  ∀ s t : State, TablesCanonical s → MapValuesInRange s → step s = .next t → MapValuesInRange t

/-- R89, R93: no channel is primary or alternate twice, every alternate stands by the dependence rule, and every
assigned channel is configured. -/
def Obligations.AssignmentsStayObedient : Prop :=
  ∀ s t : State, AnchorsObey s → step s = .next t → AnchorsObey t

/-- R163 to R166, R175, R180: receive buffers, response queues and error counters stay within their places, every
queued payload fits a frame, and a request of a read of exposure or of a save is in service just as long as its read
or save runs. That a read is held is the model's choice (log entry 32, DESIGN CHOICE, unsafe). -/
def Obligations.LinksStayBounded : Prop :=
  ∀ s t : State, step s = .next t →
    (LinksBounded s → LinksBounded t) ∧ (ResponsesFit s → ResponsesFit t) ∧
      (HeldRequestsStand s → HeldRequestsStand t)

/-- R151, R153, R160, R56: the history stays numbered without a gap, each attention line follows its flags,
and the pending slot stays empty outside a sweep. -/
def Obligations.EventsAndSlotStayLegal : Prop :=
  ∀ s t : State, step s = .next t →
    (HistoryConsecutive s → HistoryConsecutive t) ∧ (AttentionFollowsFlags s → AttentionFollowsFlags t) ∧
    (SlotOnlyWhileSweeping s → SlotOnlyWhileSweeping t)

/-- R125, R131, R138, R140: alarms, limit output and hot tube list stay silent outside Mapping, the limit
output stays as R138 judges it, and the list stays short and ordered. -/
def Obligations.AlarmsStayWithMap : Prop :=
  ∀ s t : State, TablesCanonical s → step s = .next t →
    (AlarmsFollowMap s → AlarmsFollowMap t) ∧ (HotListOrdered s → HotListOrdered t)

/-- The state after reset is what power-on reset leaves when the store holds no readable image and both rate straps are
low, the model's choice of log entries 1 and 2 (DESIGN CHOICE, unsafe), and every invariant holds of it. -/
def Obligations.ResetMeetsInvariants : Prop :=
  exec (.powerOnReset false false) State.reset = .next State.reset ∧
  TablesCanonical State.reset ∧ CellsFitGeometry State.reset ∧ MapValuesInRange State.reset ∧
    AnchorsObey State.reset ∧ LinksBounded State.reset ∧ ResponsesFit State.reset ∧ HeldRequestsStand State.reset ∧
    HistoryConsecutive State.reset ∧ AttentionFollowsFlags State.reset ∧ SlotOnlyWhileSweeping State.reset ∧
    AlarmsFollowMap State.reset ∧ HotListOrdered State.reset
end

