-- ==== Sys2Proof/Laws/State.lean ====
section
/-! SUPPORT. For each update of one block, what every block reads after it; each by rfl. -/

namespace Sys2Proof.Machine

@[simp] theorem State.withTmb_tmb (s : State) (x : Timebase) : (s.withTmb x).tmb = x := rfl
@[simp] theorem State.withTmb_acq (s : State) (x : Timebase) : (s.withTmb x).acq = s.acq := rfl
@[simp] theorem State.withTmb_scn (s : State) (x : Timebase) : (s.withTmb x).scn = s.scn := rfl
@[simp] theorem State.withTmb_map (s : State) (x : Timebase) : (s.withTmb x).map = s.map := rfl
@[simp] theorem State.withTmb_alm (s : State) (x : Timebase) : (s.withTmb x).alm = s.alm := rfl
@[simp] theorem State.withTmb_frz (s : State) (x : Timebase) : (s.withTmb x).frz = s.frz := rfl
@[simp] theorem State.withTmb_evt (s : State) (x : Timebase) : (s.withTmb x).evt = s.evt := rfl
@[simp] theorem State.withTmb_lnk (s : State) (x : Timebase) : (s.withTmb x).lnk = s.lnk := rfl
@[simp] theorem State.withTmb_cfg (s : State) (x : Timebase) : (s.withTmb x).cfg = s.cfg := rfl
@[simp] theorem State.withTmb_nvs (s : State) (x : Timebase) : (s.withTmb x).nvs = s.nvs := rfl
@[simp] theorem State.withTmb_pending (s : State) (x : Timebase) : (s.withTmb x).pending = s.pending := rfl

@[simp] theorem State.withAcq_tmb (s : State) (x : Acquisition) : (s.withAcq x).tmb = s.tmb := rfl
@[simp] theorem State.withAcq_acq (s : State) (x : Acquisition) : (s.withAcq x).acq = x := rfl
@[simp] theorem State.withAcq_scn (s : State) (x : Acquisition) : (s.withAcq x).scn = s.scn := rfl
@[simp] theorem State.withAcq_map (s : State) (x : Acquisition) : (s.withAcq x).map = s.map := rfl
@[simp] theorem State.withAcq_alm (s : State) (x : Acquisition) : (s.withAcq x).alm = s.alm := rfl
@[simp] theorem State.withAcq_frz (s : State) (x : Acquisition) : (s.withAcq x).frz = s.frz := rfl
@[simp] theorem State.withAcq_evt (s : State) (x : Acquisition) : (s.withAcq x).evt = s.evt := rfl
@[simp] theorem State.withAcq_lnk (s : State) (x : Acquisition) : (s.withAcq x).lnk = s.lnk := rfl
@[simp] theorem State.withAcq_cfg (s : State) (x : Acquisition) : (s.withAcq x).cfg = s.cfg := rfl
@[simp] theorem State.withAcq_nvs (s : State) (x : Acquisition) : (s.withAcq x).nvs = s.nvs := rfl
@[simp] theorem State.withAcq_pending (s : State) (x : Acquisition) : (s.withAcq x).pending = s.pending := rfl

@[simp] theorem State.withScn_tmb (s : State) (x : Scanner) : (s.withScn x).tmb = s.tmb := rfl
@[simp] theorem State.withScn_acq (s : State) (x : Scanner) : (s.withScn x).acq = s.acq := rfl
@[simp] theorem State.withScn_scn (s : State) (x : Scanner) : (s.withScn x).scn = x := rfl
@[simp] theorem State.withScn_map (s : State) (x : Scanner) : (s.withScn x).map = s.map := rfl
@[simp] theorem State.withScn_alm (s : State) (x : Scanner) : (s.withScn x).alm = s.alm := rfl
@[simp] theorem State.withScn_frz (s : State) (x : Scanner) : (s.withScn x).frz = s.frz := rfl
@[simp] theorem State.withScn_evt (s : State) (x : Scanner) : (s.withScn x).evt = s.evt := rfl
@[simp] theorem State.withScn_lnk (s : State) (x : Scanner) : (s.withScn x).lnk = s.lnk := rfl
@[simp] theorem State.withScn_cfg (s : State) (x : Scanner) : (s.withScn x).cfg = s.cfg := rfl
@[simp] theorem State.withScn_nvs (s : State) (x : Scanner) : (s.withScn x).nvs = s.nvs := rfl
@[simp] theorem State.withScn_pending (s : State) (x : Scanner) : (s.withScn x).pending = s.pending := rfl

@[simp] theorem State.withMap_tmb (s : State) (x : MapEngine) : (s.withMap x).tmb = s.tmb := rfl
@[simp] theorem State.withMap_acq (s : State) (x : MapEngine) : (s.withMap x).acq = s.acq := rfl
@[simp] theorem State.withMap_scn (s : State) (x : MapEngine) : (s.withMap x).scn = s.scn := rfl
@[simp] theorem State.withMap_map (s : State) (x : MapEngine) : (s.withMap x).map = x := rfl
@[simp] theorem State.withMap_alm (s : State) (x : MapEngine) : (s.withMap x).alm = s.alm := rfl
@[simp] theorem State.withMap_frz (s : State) (x : MapEngine) : (s.withMap x).frz = s.frz := rfl
@[simp] theorem State.withMap_evt (s : State) (x : MapEngine) : (s.withMap x).evt = s.evt := rfl
@[simp] theorem State.withMap_lnk (s : State) (x : MapEngine) : (s.withMap x).lnk = s.lnk := rfl
@[simp] theorem State.withMap_cfg (s : State) (x : MapEngine) : (s.withMap x).cfg = s.cfg := rfl
@[simp] theorem State.withMap_nvs (s : State) (x : MapEngine) : (s.withMap x).nvs = s.nvs := rfl
@[simp] theorem State.withMap_pending (s : State) (x : MapEngine) : (s.withMap x).pending = s.pending := rfl

@[simp] theorem State.withAlm_tmb (s : State) (x : AlarmUnit) : (s.withAlm x).tmb = s.tmb := rfl
@[simp] theorem State.withAlm_acq (s : State) (x : AlarmUnit) : (s.withAlm x).acq = s.acq := rfl
@[simp] theorem State.withAlm_scn (s : State) (x : AlarmUnit) : (s.withAlm x).scn = s.scn := rfl
@[simp] theorem State.withAlm_map (s : State) (x : AlarmUnit) : (s.withAlm x).map = s.map := rfl
@[simp] theorem State.withAlm_alm (s : State) (x : AlarmUnit) : (s.withAlm x).alm = x := rfl
@[simp] theorem State.withAlm_frz (s : State) (x : AlarmUnit) : (s.withAlm x).frz = s.frz := rfl
@[simp] theorem State.withAlm_evt (s : State) (x : AlarmUnit) : (s.withAlm x).evt = s.evt := rfl
@[simp] theorem State.withAlm_lnk (s : State) (x : AlarmUnit) : (s.withAlm x).lnk = s.lnk := rfl
@[simp] theorem State.withAlm_cfg (s : State) (x : AlarmUnit) : (s.withAlm x).cfg = s.cfg := rfl
@[simp] theorem State.withAlm_nvs (s : State) (x : AlarmUnit) : (s.withAlm x).nvs = s.nvs := rfl
@[simp] theorem State.withAlm_pending (s : State) (x : AlarmUnit) : (s.withAlm x).pending = s.pending := rfl

@[simp] theorem State.withFrz_tmb (s : State) (x : FreezeUnit) : (s.withFrz x).tmb = s.tmb := rfl
@[simp] theorem State.withFrz_acq (s : State) (x : FreezeUnit) : (s.withFrz x).acq = s.acq := rfl
@[simp] theorem State.withFrz_scn (s : State) (x : FreezeUnit) : (s.withFrz x).scn = s.scn := rfl
@[simp] theorem State.withFrz_map (s : State) (x : FreezeUnit) : (s.withFrz x).map = s.map := rfl
@[simp] theorem State.withFrz_alm (s : State) (x : FreezeUnit) : (s.withFrz x).alm = s.alm := rfl
@[simp] theorem State.withFrz_frz (s : State) (x : FreezeUnit) : (s.withFrz x).frz = x := rfl
@[simp] theorem State.withFrz_evt (s : State) (x : FreezeUnit) : (s.withFrz x).evt = s.evt := rfl
@[simp] theorem State.withFrz_lnk (s : State) (x : FreezeUnit) : (s.withFrz x).lnk = s.lnk := rfl
@[simp] theorem State.withFrz_cfg (s : State) (x : FreezeUnit) : (s.withFrz x).cfg = s.cfg := rfl
@[simp] theorem State.withFrz_nvs (s : State) (x : FreezeUnit) : (s.withFrz x).nvs = s.nvs := rfl
@[simp] theorem State.withFrz_pending (s : State) (x : FreezeUnit) : (s.withFrz x).pending = s.pending := rfl

@[simp] theorem State.withEvt_tmb (s : State) (x : EventUnit) : (s.withEvt x).tmb = s.tmb := rfl
@[simp] theorem State.withEvt_acq (s : State) (x : EventUnit) : (s.withEvt x).acq = s.acq := rfl
@[simp] theorem State.withEvt_scn (s : State) (x : EventUnit) : (s.withEvt x).scn = s.scn := rfl
@[simp] theorem State.withEvt_map (s : State) (x : EventUnit) : (s.withEvt x).map = s.map := rfl
@[simp] theorem State.withEvt_alm (s : State) (x : EventUnit) : (s.withEvt x).alm = s.alm := rfl
@[simp] theorem State.withEvt_frz (s : State) (x : EventUnit) : (s.withEvt x).frz = s.frz := rfl
@[simp] theorem State.withEvt_evt (s : State) (x : EventUnit) : (s.withEvt x).evt = x := rfl
@[simp] theorem State.withEvt_lnk (s : State) (x : EventUnit) : (s.withEvt x).lnk = s.lnk := rfl
@[simp] theorem State.withEvt_cfg (s : State) (x : EventUnit) : (s.withEvt x).cfg = s.cfg := rfl
@[simp] theorem State.withEvt_nvs (s : State) (x : EventUnit) : (s.withEvt x).nvs = s.nvs := rfl
@[simp] theorem State.withEvt_pending (s : State) (x : EventUnit) : (s.withEvt x).pending = s.pending := rfl

@[simp] theorem State.withLnk_tmb (s : State) (x : LinkController) : (s.withLnk x).tmb = s.tmb := rfl
@[simp] theorem State.withLnk_acq (s : State) (x : LinkController) : (s.withLnk x).acq = s.acq := rfl
@[simp] theorem State.withLnk_scn (s : State) (x : LinkController) : (s.withLnk x).scn = s.scn := rfl
@[simp] theorem State.withLnk_map (s : State) (x : LinkController) : (s.withLnk x).map = s.map := rfl
@[simp] theorem State.withLnk_alm (s : State) (x : LinkController) : (s.withLnk x).alm = s.alm := rfl
@[simp] theorem State.withLnk_frz (s : State) (x : LinkController) : (s.withLnk x).frz = s.frz := rfl
@[simp] theorem State.withLnk_evt (s : State) (x : LinkController) : (s.withLnk x).evt = s.evt := rfl
@[simp] theorem State.withLnk_lnk (s : State) (x : LinkController) : (s.withLnk x).lnk = x := rfl
@[simp] theorem State.withLnk_cfg (s : State) (x : LinkController) : (s.withLnk x).cfg = s.cfg := rfl
@[simp] theorem State.withLnk_nvs (s : State) (x : LinkController) : (s.withLnk x).nvs = s.nvs := rfl
@[simp] theorem State.withLnk_pending (s : State) (x : LinkController) : (s.withLnk x).pending = s.pending := rfl

@[simp] theorem State.withCfg_tmb (s : State) (x : ConfigUnit) : (s.withCfg x).tmb = s.tmb := rfl
@[simp] theorem State.withCfg_acq (s : State) (x : ConfigUnit) : (s.withCfg x).acq = s.acq := rfl
@[simp] theorem State.withCfg_scn (s : State) (x : ConfigUnit) : (s.withCfg x).scn = s.scn := rfl
@[simp] theorem State.withCfg_map (s : State) (x : ConfigUnit) : (s.withCfg x).map = s.map := rfl
@[simp] theorem State.withCfg_alm (s : State) (x : ConfigUnit) : (s.withCfg x).alm = s.alm := rfl
@[simp] theorem State.withCfg_frz (s : State) (x : ConfigUnit) : (s.withCfg x).frz = s.frz := rfl
@[simp] theorem State.withCfg_evt (s : State) (x : ConfigUnit) : (s.withCfg x).evt = s.evt := rfl
@[simp] theorem State.withCfg_lnk (s : State) (x : ConfigUnit) : (s.withCfg x).lnk = s.lnk := rfl
@[simp] theorem State.withCfg_cfg (s : State) (x : ConfigUnit) : (s.withCfg x).cfg = x := rfl
@[simp] theorem State.withCfg_nvs (s : State) (x : ConfigUnit) : (s.withCfg x).nvs = s.nvs := rfl
@[simp] theorem State.withCfg_pending (s : State) (x : ConfigUnit) : (s.withCfg x).pending = s.pending := rfl

@[simp] theorem State.withNvs_tmb (s : State) (x : Store) : (s.withNvs x).tmb = s.tmb := rfl
@[simp] theorem State.withNvs_acq (s : State) (x : Store) : (s.withNvs x).acq = s.acq := rfl
@[simp] theorem State.withNvs_scn (s : State) (x : Store) : (s.withNvs x).scn = s.scn := rfl
@[simp] theorem State.withNvs_map (s : State) (x : Store) : (s.withNvs x).map = s.map := rfl
@[simp] theorem State.withNvs_alm (s : State) (x : Store) : (s.withNvs x).alm = s.alm := rfl
@[simp] theorem State.withNvs_frz (s : State) (x : Store) : (s.withNvs x).frz = s.frz := rfl
@[simp] theorem State.withNvs_evt (s : State) (x : Store) : (s.withNvs x).evt = s.evt := rfl
@[simp] theorem State.withNvs_lnk (s : State) (x : Store) : (s.withNvs x).lnk = s.lnk := rfl
@[simp] theorem State.withNvs_cfg (s : State) (x : Store) : (s.withNvs x).cfg = s.cfg := rfl
@[simp] theorem State.withNvs_nvs (s : State) (x : Store) : (s.withNvs x).nvs = x := rfl
@[simp] theorem State.withNvs_pending (s : State) (x : Store) : (s.withNvs x).pending = s.pending := rfl

@[simp] theorem State.withPending_tmb (s : State) (x : List Instr) : (s.withPending x).tmb = s.tmb := rfl
@[simp] theorem State.withPending_acq (s : State) (x : List Instr) : (s.withPending x).acq = s.acq := rfl
@[simp] theorem State.withPending_scn (s : State) (x : List Instr) : (s.withPending x).scn = s.scn := rfl
@[simp] theorem State.withPending_map (s : State) (x : List Instr) : (s.withPending x).map = s.map := rfl
@[simp] theorem State.withPending_alm (s : State) (x : List Instr) : (s.withPending x).alm = s.alm := rfl
@[simp] theorem State.withPending_frz (s : State) (x : List Instr) : (s.withPending x).frz = s.frz := rfl
@[simp] theorem State.withPending_evt (s : State) (x : List Instr) : (s.withPending x).evt = s.evt := rfl
@[simp] theorem State.withPending_lnk (s : State) (x : List Instr) : (s.withPending x).lnk = s.lnk := rfl
@[simp] theorem State.withPending_cfg (s : State) (x : List Instr) : (s.withPending x).cfg = s.cfg := rfl
@[simp] theorem State.withPending_nvs (s : State) (x : List Instr) : (s.withPending x).nvs = s.nvs := rfl
@[simp] theorem State.withPending_pending (s : State) (x : List Instr) : (s.withPending x).pending = x := rfl

@[simp] theorem State.withTmb_withTmb (s : State) (x y : Timebase) : (s.withTmb x).withTmb y = s.withTmb y := rfl
@[simp] theorem State.withTmb_self (s : State) : s.withTmb s.tmb = s := rfl
@[simp] theorem State.withAcq_withAcq (s : State) (x y : Acquisition) : (s.withAcq x).withAcq y = s.withAcq y := rfl
@[simp] theorem State.withAcq_self (s : State) : s.withAcq s.acq = s := rfl
@[simp] theorem State.withScn_withScn (s : State) (x y : Scanner) : (s.withScn x).withScn y = s.withScn y := rfl
@[simp] theorem State.withScn_self (s : State) : s.withScn s.scn = s := rfl
@[simp] theorem State.withMap_withMap (s : State) (x y : MapEngine) : (s.withMap x).withMap y = s.withMap y := rfl
@[simp] theorem State.withMap_self (s : State) : s.withMap s.map = s := rfl
@[simp] theorem State.withAlm_withAlm (s : State) (x y : AlarmUnit) : (s.withAlm x).withAlm y = s.withAlm y := rfl
@[simp] theorem State.withAlm_self (s : State) : s.withAlm s.alm = s := rfl
@[simp] theorem State.withFrz_withFrz (s : State) (x y : FreezeUnit) : (s.withFrz x).withFrz y = s.withFrz y := rfl
@[simp] theorem State.withFrz_self (s : State) : s.withFrz s.frz = s := rfl
@[simp] theorem State.withEvt_withEvt (s : State) (x y : EventUnit) : (s.withEvt x).withEvt y = s.withEvt y := rfl
@[simp] theorem State.withEvt_self (s : State) : s.withEvt s.evt = s := rfl
@[simp] theorem State.withLnk_withLnk (s : State) (x y : LinkController) : (s.withLnk x).withLnk y = s.withLnk y := rfl
@[simp] theorem State.withLnk_self (s : State) : s.withLnk s.lnk = s := rfl
@[simp] theorem State.withCfg_withCfg (s : State) (x y : ConfigUnit) : (s.withCfg x).withCfg y = s.withCfg y := rfl
@[simp] theorem State.withCfg_self (s : State) : s.withCfg s.cfg = s := rfl
@[simp] theorem State.withNvs_withNvs (s : State) (x y : Store) : (s.withNvs x).withNvs y = s.withNvs y := rfl
@[simp] theorem State.withNvs_self (s : State) : s.withNvs s.nvs = s := rfl
@[simp] theorem State.withPending_withPending (s : State) (x y : List Instr) : (s.withPending x).withPending y = s.withPending y := rfl
@[simp] theorem State.withPending_self (s : State) : s.withPending s.pending = s := rfl

/-! ## The links -/

@[simp] theorem PerLink.get_set_same {α : Type} (p : PerLink α) (l : Link) (x : α) : (p.set l x).get l = x := by
  cases l <;> rfl

theorem PerLink.get_set_other {α : Type} (p : PerLink α) (l m : Link) (x : α) (h : m ≠ l) :
    (p.set l x).get m = p.get m := by
  cases l <;> cases m <;> first | rfl | exact absurd rfl h

@[simp] theorem PerLink.get_map {α β : Type} (f : α → β) (p : PerLink α) (l : Link) :
    (p.map f).get l = f (p.get l) := by
  cases l <;> rfl

@[simp] theorem PerLink.set_get_self {α : Type} (p : PerLink α) (l : Link) : p.set l (p.get l) = p := by
  cases l <;> rfl

theorem PerLink.ext_get {α : Type} (p q : PerLink α) (h : ∀ l, p.get l = q.get l) : p = q := by
  have ha := h .a
  have hb := h .b
  have he := h .e
  cases p
  cases q
  simp only [PerLink.get] at ha hb he
  rw [ha, hb, he]

end Sys2Proof.Machine
end

