-- ==== Sys2Proof/Laws/Events.lean ====
section
/-! SUPPORT. What an append to the event history can do (R153): it changes EVT alone, and reads no other
block but the Timebase. -/

namespace Sys2Proof.Machine

/-- An append changes EVT alone. -/
theorem appendEvent_frame (s : State) (n : Note) : appendEvent s n = s.withEvt (appendEvent s n).evt := rfl

@[simp] theorem appendEvent_tmb (s : State) (n : Note) : (appendEvent s n).tmb = s.tmb := rfl
@[simp] theorem appendEvent_acq (s : State) (n : Note) : (appendEvent s n).acq = s.acq := rfl
@[simp] theorem appendEvent_scn (s : State) (n : Note) : (appendEvent s n).scn = s.scn := rfl
@[simp] theorem appendEvent_map (s : State) (n : Note) : (appendEvent s n).map = s.map := rfl
@[simp] theorem appendEvent_alm (s : State) (n : Note) : (appendEvent s n).alm = s.alm := rfl
@[simp] theorem appendEvent_frz (s : State) (n : Note) : (appendEvent s n).frz = s.frz := rfl
@[simp] theorem appendEvent_lnk (s : State) (n : Note) : (appendEvent s n).lnk = s.lnk := rfl
@[simp] theorem appendEvent_cfg (s : State) (n : Note) : (appendEvent s n).cfg = s.cfg := rfl
@[simp] theorem appendEvent_nvs (s : State) (n : Note) : (appendEvent s n).nvs = s.nvs := rfl
@[simp] theorem appendEvent_pending (s : State) (n : Note) : (appendEvent s n).pending = s.pending := rfl

/-- An append reads EVT and the heater clock alone. -/
theorem appendEvent_evt_congr {s t : State} (n : Note) (he : s.evt = t.evt) (ht : s.tmb = t.tmb) :
    (appendEvent s n).evt = (appendEvent t n).evt := by
  simp only [appendEvent, State.withEvt_evt, he, ht]

@[simp] theorem appendEvents_nil (s : State) : appendEvents s [] = s := rfl

theorem appendEvents_cons (s : State) (n : Note) (ns : List Note) :
    appendEvents s (n :: ns) = appendEvents (appendEvent s n) ns := rfl

theorem appendEvents_append (s : State) (ns ms : List Note) :
    appendEvents s (ns ++ ms) = appendEvents (appendEvents s ns) ms := List.foldl_append ..

@[simp] theorem appendEvents_tmb (s : State) (ns : List Note) : (appendEvents s ns).tmb = s.tmb := by
  induction ns generalizing s with
  | nil => rfl
  | cons n ns ih => rw [appendEvents_cons, ih, appendEvent_tmb]

/-- Appends change EVT alone. -/
theorem appendEvents_frame (s : State) (ns : List Note) :
    appendEvents s ns = s.withEvt (appendEvents s ns).evt := by
  induction ns generalizing s with
  | nil => rfl
  | cons n ns ih => rw [appendEvents_cons, ih (appendEvent s n)]; rfl

@[simp] theorem appendEvents_acq (s : State) (ns : List Note) : (appendEvents s ns).acq = s.acq := by
  rw [appendEvents_frame]; rfl
@[simp] theorem appendEvents_scn (s : State) (ns : List Note) : (appendEvents s ns).scn = s.scn := by
  rw [appendEvents_frame]; rfl
@[simp] theorem appendEvents_map (s : State) (ns : List Note) : (appendEvents s ns).map = s.map := by
  rw [appendEvents_frame]; rfl
@[simp] theorem appendEvents_alm (s : State) (ns : List Note) : (appendEvents s ns).alm = s.alm := by
  rw [appendEvents_frame]; rfl
@[simp] theorem appendEvents_frz (s : State) (ns : List Note) : (appendEvents s ns).frz = s.frz := by
  rw [appendEvents_frame]; rfl
@[simp] theorem appendEvents_lnk (s : State) (ns : List Note) : (appendEvents s ns).lnk = s.lnk := by
  rw [appendEvents_frame]; rfl
@[simp] theorem appendEvents_cfg (s : State) (ns : List Note) : (appendEvents s ns).cfg = s.cfg := by
  rw [appendEvents_frame]; rfl
@[simp] theorem appendEvents_nvs (s : State) (ns : List Note) : (appendEvents s ns).nvs = s.nvs := by
  rw [appendEvents_frame]; rfl
@[simp] theorem appendEvents_pending (s : State) (ns : List Note) : (appendEvents s ns).pending = s.pending := by
  rw [appendEvents_frame]; rfl

/-- Appends read EVT and the heater clock alone. -/
theorem appendEvents_evt_congr {s t : State} (ns : List Note) (he : s.evt = t.evt) (ht : s.tmb = t.tmb) :
    (appendEvents s ns).evt = (appendEvents t ns).evt := by
  induction ns generalizing s t with
  | nil => exact he
  | cons n ns ih =>
    rw [appendEvents_cons, appendEvents_cons]
    exact ih (appendEvent_evt_congr n he ht) ht

/-- Setting flags judges the line again (R160). -/
theorem EventLink.setFlags_attention (f : FlagSet) (x : EventLink) :
    (x.setFlags f).attention = (x.setFlags f).called := rfl

theorem EventLink.clearFlags_attention (f : FlagSet) (x : EventLink) :
    (x.clearFlags f).attention = (x.clearFlags f).called := rfl

end Sys2Proof.Machine
end

