-- ==== Sys2Proof/Laws/Service.lean ====
section
/-! SUPPORT. What the request service can do: the outcomes of a good frame (R165 to R167), of a configuration
edit (R177), and the state a response leaves. -/

namespace Sys2Proof.Machine

/-! ## One link changed -/

@[simp] theorem onLink_tmb (s : State) (l : Link) (f : LinkState → LinkState) : (onLink s l f).tmb = s.tmb := rfl
@[simp] theorem onLink_acq (s : State) (l : Link) (f : LinkState → LinkState) : (onLink s l f).acq = s.acq := rfl
@[simp] theorem onLink_scn (s : State) (l : Link) (f : LinkState → LinkState) : (onLink s l f).scn = s.scn := rfl
@[simp] theorem onLink_map (s : State) (l : Link) (f : LinkState → LinkState) : (onLink s l f).map = s.map := rfl
@[simp] theorem onLink_alm (s : State) (l : Link) (f : LinkState → LinkState) : (onLink s l f).alm = s.alm := rfl
@[simp] theorem onLink_frz (s : State) (l : Link) (f : LinkState → LinkState) : (onLink s l f).frz = s.frz := rfl
@[simp] theorem onLink_evt (s : State) (l : Link) (f : LinkState → LinkState) : (onLink s l f).evt = s.evt := rfl
@[simp] theorem onLink_cfg (s : State) (l : Link) (f : LinkState → LinkState) : (onLink s l f).cfg = s.cfg := rfl
@[simp] theorem onLink_nvs (s : State) (l : Link) (f : LinkState → LinkState) : (onLink s l f).nvs = s.nvs := rfl
@[simp] theorem onLink_pending (s : State) (l : Link) (f : LinkState → LinkState) :
    (onLink s l f).pending = s.pending := rfl

@[simp] theorem onLink_get_same (s : State) (l : Link) (f : LinkState → LinkState) :
    (onLink s l f).lnk.links.get l = f (s.lnk.links.get l) := PerLink.get_set_same ..

theorem onLink_get_other (s : State) {l m : Link} (f : LinkState → LinkState) (h : m ≠ l) :
    (onLink s l f).lnk.links.get m = s.lnk.links.get m := PerLink.get_set_other _ _ _ _ h

@[simp] theorem onLink_straps (s : State) (l : Link) (f : LinkState → LinkState) :
    (onLink s l f).lnk.strap1 = s.lnk.strap1 ∧ (onLink s l f).lnk.strap0 = s.lnk.strap0 := ⟨rfl, rfl⟩

/-- Two changes of one link are one change. -/
theorem onLink_onLink (s : State) (l : Link) (f g : LinkState → LinkState) :
    onLink (onLink s l f) l g = onLink s l fun x => g (f x) := by
  cases l <;> rfl

/-! ## A good frame -/

/-- Checks 1 to 3 pass for a known command that needs no rights, other than Acknowledge (R167). -/
theorem linkRefusal_none_of_open (s : State) (l : Link) (code : Byte) (hk : commandKnown code = true)
    (ha : code ≠ acknowledgeCode) (hr : commandNeedsRights code = false) : linkRefusal s l code = none := by
  simp [linkRefusal, hk, ha, hr]

/-- Checks 1 to 3 pass for a known command on a link that holds rights, other than Acknowledge (R167). -/
theorem linkRefusal_none_of_rights (s : State) (l : Link) (code : Byte) (hk : commandKnown code = true)
    (ha : code ≠ acknowledgeCode) (hr : s.holdsRights l = true) : linkRefusal s l code = none := by
  simp [linkRefusal, hk, ha, hr]

/-- A request that its owner answers within the action (R165). -/
theorem serve_now {s t : State} {l : Link} {tag code : Byte} {f : Owner} {r : Result} {p : List Byte}
    (hs : Free s l) (hl : linkRefusal s l code = none) (hf : f s = (t, .now r p)) :
    serve l tag code (some f) s = replied t l tag code r p := by
  obtain ⟨h1, h2⟩ := hs
  have : ¬queueLimit ≤ (s.lnk.links.get l).queue.length := by
    unfold queueLimit
    omega
  simp only [serve, this, h1, hl, hf, if_false, Option.isSome_none, Bool.false_eq_true, settle, replied]

/-- A request that its owner holds (R165). -/
theorem serve_held {s t : State} {l : Link} {tag code : Byte} {f : Owner}
    (hs : Free s l) (hl : linkRefusal s l code = none) (hf : f s = (t, .held)) :
    serve l tag code (some f) s = heldOn t l tag code := by
  obtain ⟨h1, h2⟩ := hs
  have : ¬queueLimit ≤ (s.lnk.links.get l).queue.length := by
    unfold queueLimit
    omega
  simp only [serve, this, h1, hl, hf, if_false, Option.isSome_none, Bool.false_eq_true, settle, heldOn]

/-- A request refused by a check of LNK (R167). -/
theorem serve_refused {s : State} {l : Link} {tag code : Byte} {f : Option Owner} {r : Result}
    (hs : Free s l) (hl : linkRefusal s l code = some r) :
    serve l tag code f s = replied s l tag code r [] := by
  obtain ⟨h1, h2⟩ := hs
  have : ¬queueLimit ≤ (s.lnk.links.get l).queue.length := by
    unfold queueLimit
    omega
  simp only [serve, this, h1, hl, if_false, Option.isSome_none, Bool.false_eq_true, replied]

/-- Every outcome of a good frame: dropped, answered BUSY, refused, answered, or held. -/
theorem serve_cases (l : Link) (tag code : Byte) (owner : Option Owner) (s : State) :
    (queueLimit ≤ (s.lnk.links.get l).queue.length ∧
      serve l tag code owner s = onLink s l LinkState.countError) ∨
    ((s.lnk.links.get l).queue.length < queueLimit ∧
      ((∃ r, serve l tag code owner s = replied s l tag code r []) ∨
        ((s.lnk.links.get l).inService = none ∧ ∃ f, owner = some f ∧
          ((∃ t r p, f s = (t, .now r p) ∧ serve l tag code owner s = replied t l tag code r p) ∨
            ∃ t, f s = (t, .held) ∧ serve l tag code owner s = heldOn t l tag code)))) := by
  unfold serve
  by_cases hq : queueLimit ≤ (s.lnk.links.get l).queue.length
  · exact .inl ⟨hq, by simp [hq]⟩
  · refine .inr ⟨by omega, ?_⟩
    simp only [hq, if_false]
    by_cases hb : (s.lnk.links.get l).inService.isSome = true
    · exact .inl ⟨.busy, by simp [hb, replied]⟩
    · simp only [hb, Bool.false_eq_true, if_false]
      cases hl : linkRefusal s l code with
      | some r => exact .inl ⟨r, rfl⟩
      | none =>
        cases owner with
        | none => exact .inl ⟨.badArgument, rfl⟩
        | some f =>
          refine .inr ⟨by simpa using hb, f, rfl, ?_⟩
          rcases hf : f s with ⟨t, a⟩
          cases a with
          | now r p => exact .inl ⟨t, r, p, rfl, by simp [settle, replied, hf]⟩
          | held => exact .inr ⟨t, rfl, by simp [settle, heldOn, hf]⟩

/-! ## Configuration edits (R177) -/

variable {l : Link} {expected : Nat} {refusal : State → Option Result} {clamped : State → Bool}
  {apply : State → State} {events : State → List Note} {s : State}

theorem edit_stale (h : expected ≠ s.cfg.generation) :
    edit l expected refusal clamped apply events s = (s, .now .staleGeneration (enc16 s.cfg.generation)) := by
  simp [edit, h]

theorem edit_refused {r : Result} (h : expected = s.cfg.generation) (hr : refusal s = some r) :
    edit l expected refusal clamped apply events s = (s, .now r (enc16 s.cfg.generation)) := by
  simp [edit, h, hr]

theorem acceptEdit_generation (l : Link) (s : State) :
    (acceptEdit l s).cfg.generation = (s.cfg.generation + 1) % 65536 := rfl

theorem edit_taken (h : expected = s.cfg.generation) (hr : refusal s = none) :
    edit l expected refusal clamped apply events s
      = (appendEvents (acceptEdit l (apply s)) (events s),
          .now (clampedIf (clamped s)) (enc16 (((apply s).cfg.generation + 1) % 65536))) := by
  simp only [edit, h, ne_eq, not_true_eq_false, if_false, hr, appendEvents_cfg, acceptEdit_generation]

/-- Every outcome of an edit: stale, refused, or taken. -/
theorem edit_cases (l : Link) (expected : Nat) (refusal : State → Option Result) (clamped : State → Bool)
    (apply : State → State) (events : State → List Note) (s : State) :
    (∃ r, edit l expected refusal clamped apply events s = (s, .now r (enc16 s.cfg.generation))) ∨
    (refusal s = none ∧ ∃ r p, edit l expected refusal clamped apply events s
      = (appendEvents (acceptEdit l (apply s)) (events s), .now r p)) := by
  unfold edit
  split
  · exact .inl ⟨_, rfl⟩
  · cases h : refusal s with
    | some r => exact .inl ⟨r, rfl⟩
    | none => exact .inr ⟨rfl, _, _, rfl⟩

/-- The first refusal of a list of checks is none exactly when every check passes. -/
theorem firstRefusal_eq_none (checks : List (Bool × Result)) :
    firstRefusal checks = none ↔ ∀ x ∈ checks, x.1 = false := by
  induction checks with
  | nil => simp [firstRefusal]
  | cons x rest ih =>
    obtain ⟨b, r⟩ := x
    cases b <;> simp [firstRefusal, ih]

/-! ## A command of each kind, whole -/

/-- An open command that its owner answers within the action (R165, R167). -/
theorem serve_open {s t : State} {l : Link} {tag code : Byte} {f : Owner} {r : Result} {p : List Byte}
    (hs : Free s l) (hk : commandKnown code = true) (hn : commandNeedsRights code = false)
    (ha : code ≠ acknowledgeCode) (hf : f s = (t, .now r p)) :
    serve l tag code (some f) s = replied t l tag code r p :=
  serve_now hs (linkRefusal_none_of_open s l code hk ha hn) hf

/-- A command from a link with edit rights that its owner answers within the action (R165, R167). -/
theorem serve_operating {s t : State} {l : Link} {tag code : Byte} {f : Owner} {r : Result} {p : List Byte}
    (hs : Ready s l) (hk : commandKnown code = true) (ha : code ≠ acknowledgeCode) (hf : f s = (t, .now r p)) :
    serve l tag code (some f) s = replied t l tag code r p :=
  serve_now hs.1 (linkRefusal_none_of_rights s l code hk ha hs.2) hf

/-- An edit of the current generation that passes its own checks (R173, R177). -/
theorem serve_edit_taken {s : State} {l : Link} {tag code : Byte} {refusal : State → Option Result}
    {clamped : State → Bool} {apply : State → State} {events : State → List Note} (hs : Ready s l)
    (hk : commandKnown code = true) (ha : code ≠ acknowledgeCode) (hr : refusal s = none) :
    serve l tag code (some (edit l s.cfg.generation refusal clamped apply events)) s
      = edited (apply s) l tag code (clampedIf (clamped s)) (events s) := by
  rw [serve_now hs.1 (linkRefusal_none_of_rights s l code hk ha hs.2) (edit_taken rfl hr)]
  rfl

/-- An edit of the current generation that one of its own checks refuses (R173, R177). -/
theorem serve_edit_refused {s : State} {l : Link} {tag code : Byte} {refusal : State → Option Result}
    {clamped : State → Bool} {apply : State → State} {events : State → List Note} {r : Result} (hs : Ready s l)
    (hk : commandKnown code = true) (ha : code ≠ acknowledgeCode) (hr : refusal s = some r) :
    serve l tag code (some (edit l s.cfg.generation refusal clamped apply events)) s
      = editRefused s l tag code r := by
  rw [serve_now hs.1 (linkRefusal_none_of_rights s l code hk ha hs.2) (edit_refused rfl hr)]
  rfl

end Sys2Proof.Machine
end

