-- ==== Sys2Proof/Laws/Tables.lean ====
section
/-! SUPPORT. What the operations on tables by number do: reading after writing, and that each keeps the one
canonical form. -/

namespace Sys2Proof.Machine

variable {α β : Type}

/-! ## Reading -/

@[simp] theorem Table.find_nil (k : Nat) : Table.find ([] : Table α) k = none := rfl

theorem Table.find_cons (j : Nat) (v : α) (t : Table α) (k : Nat) :
    Table.find ((j, v) :: t) k = if j = k then some v else Table.find t k := rfl

@[simp] theorem Table.get_nil (b : α) (k : Nat) : Table.get b ([] : Table α) k = b := rfl

theorem Table.find_mem {t : Table α} {k : Nat} {v : α} (h : Table.find t k = some v) : (k, v) ∈ t := by
  induction t with
  | nil => simp at h
  | cons x t ih =>
    obtain ⟨j, w⟩ := x
    rw [Table.find_cons] at h
    split at h
    · simp_all
    · exact List.mem_cons_of_mem _ (ih h)

theorem Table.find_insert (t : Table α) (k : Nat) (v : α) (n : Nat) :
    Table.find (Table.insert t k v) n = if n = k then some v else Table.find t n := by
  induction t with
  | nil => simp only [Table.insert, Table.find_cons, Table.find_nil, eq_comm]
  | cons x t ih =>
    obtain ⟨j, w⟩ := x
    simp only [Table.insert]
    split
    · simp only [Table.find_cons]; grind
    · split
      · simp only [Table.find_cons]; grind
      · simp only [Table.find_cons, ih]; grind

theorem Table.find_erase_ne (t : Table α) {k n : Nat} (h : n ≠ k) :
    Table.find (Table.erase t k) n = Table.find t n := by
  induction t with
  | nil => rfl
  | cons x t ih =>
    obtain ⟨j, w⟩ := x
    simp only [Table.erase]
    split
    · simp only [Table.find_cons]; grind
    · simp only [Table.find_cons, ih]

/-! ## The numbers rise -/

theorem Table.rising_cons (j : Nat) (v : α) (t : Table α) :
    Table.rising ((j, v) :: t) = true ↔ (∀ x ∈ t, j < x.1) ∧ Table.rising t = true := by
  induction t generalizing j v with
  | nil => simp [Table.rising]
  | cons x t ih =>
    obtain ⟨k, w⟩ := x
    have := ih k w
    simp only [Table.rising, Bool.and_eq_true, decide_eq_true_eq, List.mem_cons, forall_eq_or_imp]
    constructor
    · rintro ⟨h, h'⟩
      exact ⟨⟨h, fun x hx => lt_trans h ((this.1 h').1 x hx)⟩, h'⟩
    · rintro ⟨⟨h, -⟩, h'⟩
      exact ⟨h, h'⟩

theorem Table.rising_iff_pairwise (t : Table α) :
    Table.rising t = true ↔ t.Pairwise (fun x y => x.1 < y.1) := by
  induction t with
  | nil => simp [Table.rising]
  | cons x t ih => obtain ⟨j, v⟩ := x; rw [Table.rising_cons, ih, List.pairwise_cons]

theorem Table.find_eq_none_of_lt {t : Table α} {k : Nat} (h : ∀ x ∈ t, k < x.1) : Table.find t k = none := by
  induction t with
  | nil => rfl
  | cons x t ih =>
    obtain ⟨j, v⟩ := x
    have hj := h (j, v) (by simp)
    rw [Table.find_cons, if_neg (by omega)]
    exact ih fun x hx => h x (by simp [hx])

/-- In a table in order, an entry is listed exactly when it is read back. -/
theorem Table.find_eq_some_iff {t : Table α} (h : Table.rising t = true) (k : Nat) (v : α) :
    Table.find t k = some v ↔ (k, v) ∈ t := by
  refine ⟨Table.find_mem, fun hm => ?_⟩
  induction t with
  | nil => simp at hm
  | cons x t ih =>
    obtain ⟨j, w⟩ := x
    rw [Table.rising_cons] at h
    rw [Table.find_cons]
    rcases List.mem_cons.1 hm with h' | h'
    · simp_all
    · rw [if_neg (Nat.ne_of_lt (h.1 _ h'))]
      exact ih h.2 h'

theorem Table.find_erase {t : Table α} (h : Table.rising t = true) (k n : Nat) :
    Table.find (Table.erase t k) n = if n = k then none else Table.find t n := by
  by_cases hn : n = k
  · subst hn
    rw [if_pos rfl]
    induction t with
    | nil => rfl
    | cons x t ih =>
      obtain ⟨j, w⟩ := x
      rw [Table.rising_cons] at h
      simp only [Table.erase]
      split
      · rename_i hj
        subst hj
        exact Table.find_eq_none_of_lt h.1
      · rename_i hj
        rw [Table.find_cons, if_neg hj, ih h.2]
  · rw [if_neg hn, Table.find_erase_ne t hn]

theorem Table.find_set {t : Table α} (h : Table.rising t = true) (k : Nat) (v : Option α) (n : Nat) :
    Table.find (Table.set t k v) n = if n = k then v else Table.find t n := by
  cases v with
  | none => exact Table.find_erase h k n
  | some v => exact Table.find_insert t k v n

/-- Reading after writing, through the blank value. -/
theorem Table.get_put [DecidableEq α] (b : α) {t : Table α} (h : Table.rising t = true) (k : Nat) (v : α) (n : Nat) :
    Table.get b (Table.put b t k v) n = if n = k then v else Table.get b t n := by
  unfold Table.put Table.get
  split
  · rename_i hv
    rw [Table.find_erase h]
    split <;> simp [hv]
  · rw [Table.find_insert]
    split <;> simp

/-- Reading after writing what is not blank, in any table. -/
theorem Table.get_put_of_ne [DecidableEq α] (b : α) (t : Table α) (k : Nat) {v : α} (hv : v ≠ b) (n : Nat) :
    Table.get b (Table.put b t k v) n = if n = k then v else Table.get b t n := by
  unfold Table.put Table.get
  rw [if_neg hv, Table.find_insert]
  split <;> simp

/-- Writing one number leaves the others, in any table. -/
theorem Table.get_put_ne [DecidableEq α] (b : α) (t : Table α) {k n : Nat} (v : α) (h : n ≠ k) :
    Table.get b (Table.put b t k v) n = Table.get b t n := by
  unfold Table.put Table.get
  split
  · rw [Table.find_erase_ne t h]
  · rw [Table.find_insert, if_neg h]

theorem Table.find_restrict (keep : Nat → Bool) (t : Table α) (n : Nat) :
    Table.find (Table.restrict keep t) n = if keep n = true then Table.find t n else none := by
  induction t with
  | nil => simp [Table.restrict]
  | cons x t ih =>
    obtain ⟨j, w⟩ := x
    simp only [Table.restrict, List.filter_cons] at ih ⊢
    split
    · rw [Table.find_cons, Table.find_cons, ih]; grind
    · rw [ih, Table.find_cons]; grind

theorem Table.find_mapEntries (f : Nat → α → β) (t : Table α) (n : Nat) :
    Table.find (Table.mapEntries f t) n = (Table.find t n).map (f n) := by
  induction t with
  | nil => rfl
  | cons x t ih =>
    obtain ⟨j, w⟩ := x
    have ih' : Table.find (List.map (fun e => (e.1, f e.1 e.2)) t) n = (Table.find t n).map (f n) := ih
    simp only [Table.mapEntries, List.map_cons, Table.find_cons, ih']
    split <;> simp_all

/-- In a table in order, a filter keeps exactly the entries it holds for. -/
theorem Table.find_filter {t : Table α} (h : Table.rising t = true) (p : Nat × α → Bool) (n : Nat) (v : α) :
    Table.find (t.filter p) n = some v ↔ Table.find t n = some v ∧ p (n, v) = true := by
  have h' : Table.rising (t.filter p) = true := by
    rw [Table.rising_iff_pairwise] at h ⊢
    exact h.filter p
  rw [Table.find_eq_some_iff h', Table.find_eq_some_iff h, List.mem_filter]

/-! ## Every operation keeps the canonical form -/

theorem Table.mem_insert {t : Table α} {k : Nat} {v : α} {x : Nat × α} (h : x ∈ Table.insert t k v) :
    x = (k, v) ∨ x ∈ t := by
  induction t with
  | nil => simpa [Table.insert] using h
  | cons y t ih =>
    obtain ⟨j, w⟩ := y
    simp only [Table.insert] at h
    split at h
    · simpa using h
    · split at h
      · rcases List.mem_cons.1 h with h | h
        · exact .inl h
        · exact .inr (List.mem_cons_of_mem _ h)
      · rcases List.mem_cons.1 h with h | h
        · exact .inr (h ▸ List.mem_cons_self)
        · exact (ih h).imp id (List.mem_cons_of_mem _)

theorem Table.erase_sublist (t : Table α) (k : Nat) : (Table.erase t k).Sublist t := by
  induction t with
  | nil => exact .slnil
  | cons y t ih =>
    obtain ⟨j, w⟩ := y
    simp only [Table.erase]
    split
    · exact List.sublist_cons_self _ _
    · exact ih.cons_cons _

theorem Table.rising_of_sublist {t u : Table α} (h : u.Sublist t) (ht : Table.rising t = true) :
    Table.rising u = true := by
  rw [Table.rising_iff_pairwise] at ht ⊢
  exact ht.sublist h

theorem Table.rising_erase {t : Table α} (h : Table.rising t = true) (k : Nat) :
    Table.rising (Table.erase t k) = true := Table.rising_of_sublist (Table.erase_sublist t k) h

theorem Table.rising_filter {t : Table α} (h : Table.rising t = true) (p : Nat × α → Bool) :
    Table.rising (t.filter p) = true := Table.rising_of_sublist List.filter_sublist h

theorem Table.rising_insert {t : Table α} (h : Table.rising t = true) (k : Nat) (v : α) :
    Table.rising (Table.insert t k v) = true := by
  induction t with
  | nil => rfl
  | cons y t ih =>
    obtain ⟨j, w⟩ := y
    have h' := (Table.rising_cons j w t).1 h
    simp only [Table.insert]
    split
    · rename_i hk
      rw [Table.rising_cons]
      refine ⟨fun x hx => ?_, h⟩
      rcases List.mem_cons.1 hx with hx | hx
      · subst hx; exact hk
      · exact lt_trans hk (h'.1 x hx)
    · split
      · rename_i hk
        subst hk
        rw [Table.rising_cons]
        exact h'
      · rw [Table.rising_cons]
        refine ⟨fun x hx => ?_, ih h'.2⟩
        rcases Table.mem_insert hx with hx | hx
        · subst hx
          show j < k
          omega
        · exact h'.1 x hx

theorem Table.rising_put [DecidableEq α] (b : α) {t : Table α} (h : Table.rising t = true) (k : Nat) (v : α) :
    Table.rising (Table.put b t k v) = true := by
  unfold Table.put
  split
  · exact Table.rising_erase h k
  · exact Table.rising_insert h k v

theorem Table.rising_set {t : Table α} (h : Table.rising t = true) (k : Nat) (v : Option α) :
    Table.rising (Table.set t k v) = true := by
  cases v with
  | none => exact Table.rising_erase h k
  | some v => exact Table.rising_insert h k v

theorem Table.rising_restrict {t : Table α} (h : Table.rising t = true) (keep : Nat → Bool) :
    Table.rising (Table.restrict keep t) = true := Table.rising_filter h _

/-- Entries rewritten in place, some of them dropped: the numbers still rise. -/
theorem Table.rising_filterMap {t : Table α} (h : Table.rising t = true) (f : Nat × α → Option (Nat × β))
    (hf : ∀ x y, f x = some y → y.1 = x.1) : Table.rising (t.filterMap f) = true := by
  rw [Table.rising_iff_pairwise] at h ⊢
  rw [List.pairwise_filterMap]
  refine h.imp fun {x y} hxy a ha b hb => ?_
  rw [hf x a ha, hf y b hb]
  exact hxy

theorem Table.rising_mapEntries {t : Table α} (h : Table.rising t = true) (f : Nat → α → β) :
    Table.rising (Table.mapEntries f t) = true := by
  rw [Table.rising_iff_pairwise] at h ⊢
  exact List.pairwise_map.2 h

theorem Table.noBlank_iff [DecidableEq α] (b : α) (t : Table α) :
    Table.noBlank b t = true ↔ ∀ x ∈ t, x.2 ≠ b := by
  simp [Table.noBlank]

theorem Table.noBlank_put [DecidableEq α] (b : α) {t : Table α} (h : Table.noBlank b t = true) (k : Nat) (v : α) :
    Table.noBlank b (Table.put b t k v) = true := by
  rw [Table.noBlank_iff] at h ⊢
  unfold Table.put
  split
  · exact fun x hx => h x ((Table.erase_sublist t k).subset hx)
  · rename_i hv
    intro x hx
    rcases Table.mem_insert hx with hx | hx
    · subst hx; exact hv
    · exact h x hx

theorem Table.noBlank_filter [DecidableEq α] (b : α) {t : Table α} (h : Table.noBlank b t = true)
    (p : Nat × α → Bool) : Table.noBlank b (t.filter p) = true := by
  rw [Table.noBlank_iff] at h ⊢
  exact fun x hx => h x (List.mem_filter.1 hx).1

theorem Table.noBlank_restrict [DecidableEq α] (b : α) {t : Table α} (h : Table.noBlank b t = true)
    (keep : Nat → Bool) : Table.noBlank b (Table.restrict keep t) = true := Table.noBlank_filter b h _

end Sys2Proof.Machine
end

