-- ==== Sys2Proof/Laws/Reads.lean ====
section
/-! SUPPORT. What a read of exposure takes: its cells parted by tube, one tube at a time (R16, R113), and what a step
with no command waiting does. -/

namespace Sys2Proof.Machine

/-! ## Places -/

theorem placeOf_coil_mem {g : Geometry} {n : Nat} {p : Place} (h : placeOf g n = some p) : ∃ x ∈ g, x.1 = p.coil := by
  induction g generalizing n with
  | nil => cases h
  | cons x g ih =>
    unfold placeOf at h
    split at h
    · cases h
      exact ⟨x, by simp, rfl⟩
    · obtain ⟨y, hy, hc⟩ := ih h
      exact ⟨y, by simp [hy], hc⟩

theorem placeOf_inUse {g : Geometry} {n : Nat} (h : n < cellTotal g) : ∃ p, placeOf g n = some p := by
  induction g generalizing n with
  | nil => simp [cellTotal] at h
  | cons x g ih =>
    simp only [cellTotal] at h
    unfold placeOf
    split
    · exact ⟨_, rfl⟩
    · exact ih (by omega)

/-- A cell between two cells of one tube stands in that tube (R3). -/
theorem placeOf_between {g : Geometry} (hg : Table.rising g = true) {n m k : Nat} {p q : Place}
    (hp : placeOf g n = some p) (hq : placeOf g k = some q) (hc : p.coil = q.coil) (ht : p.tube = q.tube)
    (hnm : n ≤ m) (hmk : m ≤ k) : ∃ r, placeOf g m = some r ∧ r.coil = p.coil ∧ r.tube = p.tube := by
  induction g generalizing n m k with
  | nil => cases hp
  | cons x g ih =>
    have hr := (Table.rising_iff_pairwise _).mp hg
    rw [List.pairwise_cons] at hr
    unfold placeOf at hp hq ⊢
    by_cases hk : k < x.2.cells
    · have hn : n < x.2.cells := by omega
      have hm : m < x.2.cells := by omega
      simp only [hk, hn, hm, if_true, Option.some.injEq] at hp hq ⊢
      subst hp hq
      refine ⟨_, rfl, rfl, ?_⟩
      simp only at ht ⊢
      have h1 : n / x.2.elevations ≤ m / x.2.elevations := Nat.div_le_div_right hnm
      have h2 : m / x.2.elevations ≤ k / x.2.elevations := Nat.div_le_div_right hmk
      omega
    · simp only [hk, if_false] at hq
      by_cases hn : n < x.2.cells
      · simp only [hn, if_true, Option.some.injEq] at hp
        subst hp
        obtain ⟨y, hy, hyc⟩ := placeOf_coil_mem hq
        have := hr.1 y hy
        simp only at hc
        omega
      · simp only [hn, if_false] at hp
        have hm : ¬m < x.2.cells := by omega
        simp only [hm, if_false]
        exact ih ((Table.rising_iff_pairwise _).mpr hr.2) hp hq (by omega) (by omega)

/-! ## Tubes -/

theorem onOneTube_iff (s : State) (n m : Nat) : onOneTube s n m = true ↔ InOneTube s n m := by
  unfold onOneTube InOneTube
  cases placeOf s.geometry n <;> cases placeOf s.geometry m <;> simp

theorem InOneTube.symm {s : State} {n m : Nat} (h : InOneTube s n m) : InOneTube s m n := by
  obtain ⟨p, q, hp, hq, hc, ht⟩ := h
  exact ⟨q, p, hq, hp, hc.symm, ht.symm⟩

theorem InOneTube.trans {s : State} {n m k : Nat} (h : InOneTube s n m) (h' : InOneTube s m k) :
    InOneTube s n k := by
  obtain ⟨p, q, hp, hq, hc, ht⟩ := h
  obtain ⟨q', r, hq', hr, hc', ht'⟩ := h'
  rw [hq] at hq'
  cases hq'
  exact ⟨p, r, hp, hr, hc.trans hc', ht.trans ht'⟩

theorem inOneTube_self {s : State} {n : Nat} (h : n < s.cellTotal) : InOneTube s n n := by
  obtain ⟨p, hp⟩ := placeOf_inUse h
  exact ⟨p, p, hp, hp, rfl, rfl⟩

/-- The tube of a cell and a later one holds every cell between them. -/
theorem InOneTube.between {s : State} (hg : Table.rising s.geometry = true) {n m k : Nat} (h : InOneTube s n k)
    (hnm : n ≤ m) (hmk : m ≤ k) : InOneTube s n m := by
  obtain ⟨p, q, hp, hq, hc, ht⟩ := h
  obtain ⟨r, hr, hrc, hrt⟩ := placeOf_between hg hp hq hc ht hnm hmk
  exact ⟨p, r, hp, hr, hrc.symm, hrt.symm⟩

/-- The tubes of some cells hold those cells, in their order. -/
theorem tubesOf_flatten (s : State) (cells : List Nat) : (tubesOf s cells).flatten = cells := by
  induction cells with
  | nil => rfl
  | cons n rest ih =>
    unfold tubesOf
    rcases h : tubesOf s rest with _ | ⟨_ | ⟨m, cells⟩, tubes⟩ <;> rw [h] at ih
    · simpa using ih
    · simpa using ih
    · dsimp only
      split <;> simpa using ih

/-- Ascending cells in use are parted into whole tubes, each once. -/
theorem tubesOf_parted (s : State) (hg : Table.rising s.geometry = true) {cells : List Nat}
    (hs : cells.Pairwise (· < ·)) (hu : ∀ n ∈ cells, n < s.cellTotal) : PartedByTube s cells (tubesOf s cells) := by
  refine ⟨tubesOf_flatten s cells, ?_⟩
  induction cells with
  | nil => exact ⟨by simp [tubesOf], .nil⟩
  | cons n rest ih =>
    rw [List.pairwise_cons] at hs
    obtain ⟨hone, hparts⟩ := ih hs.2 fun m hm => hu m (by simp [hm])
    have hself : InOneTube s n n := inOneTube_self (hu n (by simp))
    have hflat := tubesOf_flatten s rest
    unfold tubesOf
    rcases h : tubesOf s rest with _ | ⟨_ | ⟨m, cells⟩, tubes⟩ <;> rw [h] at hone hparts hflat
    · exact ⟨by simp [hself], by simp⟩
    · exact absurd rfl (hone [] (by simp)).1
    · have hfirst := (hone (m :: cells) (by simp)).2
      have hmem : ∀ t ∈ (m :: cells) :: tubes, ∀ x ∈ t, n < x := fun t ht x hx =>
        hs.1 x (hflat ▸ List.mem_flatten.mpr ⟨t, ht, hx⟩)
      have hle : ∀ t ∈ (m :: cells) :: tubes, ∀ x ∈ t, m ≤ x := by
        intro t ht x hx
        have hpw : ((m :: cells) :: tubes).flatten.Pairwise (· < ·) := hflat ▸ hs.2
        have hin : x ∈ ((m :: cells) :: tubes).flatten := List.mem_flatten.mpr ⟨t, ht, hx⟩
        simp only [List.flatten_cons, List.cons_append, List.pairwise_cons] at hpw
        simp only [List.flatten_cons, List.cons_append, List.mem_cons] at hin
        rcases hin with rfl | hin
        · exact Nat.le_refl _
        · exact Nat.le_of_lt (hpw.1 x hin)
      rw [List.pairwise_cons] at hparts
      dsimp only
      split
      · rename_i hnm
        have hnm := (onOneTube_iff s n m).mp hnm
        refine ⟨?_, ?_⟩
        · intro t ht
          rcases List.mem_cons.mp ht with rfl | ht
          · refine ⟨by simp, fun x hx y hy => ?_⟩
            have hto : ∀ x ∈ n :: m :: cells, InOneTube s n x := by
              intro x hx
              rcases List.mem_cons.mp hx with rfl | hx
              · exact hself
              · exact hnm.trans (hfirst m (by simp) x hx)
            exact (hto x hx).symm.trans (hto y hy)
          · exact hone t (by simp [ht])
        · rw [List.pairwise_cons]
          refine ⟨fun u hv x hx y hy hxy => ?_, hparts.2⟩
          rcases List.mem_cons.mp hx with rfl | hx
          · exact hparts.1 u hv m (by simp) y hy (hnm.symm.trans hxy)
          · exact hparts.1 u hv x hx y hy hxy
      · rename_i hnm
        have hnm : ¬InOneTube s n m := fun h => hnm ((onOneTube_iff s n m).mpr h)
        refine ⟨?_, ?_⟩
        · intro t ht
          rcases List.mem_cons.mp ht with rfl | ht
          · refine ⟨by simp, fun x hx y hy => ?_⟩
            simp only [List.mem_singleton] at hx hy
            subst hx hy
            exact hself
          · exact hone t ht
        · rw [List.pairwise_cons]
          refine ⟨fun u hv x hx y hy hxy => ?_, List.pairwise_cons.mpr hparts⟩
          simp only [List.mem_singleton] at hx
          subst hx
          exact hnm (hxy.between hg (Nat.le_of_lt (hmem (m :: cells) (by simp) m (by simp))) (hle u hv y hy))

/-! ## The walk of a read -/

/-- A read covers the same cells before and after it takes a tube. -/
theorem ExposureRead.take_covers (s : State) (x : ExposureRead) :
    (x.take s).taken.map TakenCell.cell ++ (x.take s).left.flatten = x.taken.map TakenCell.cell ++ x.left.flatten := by
  rcases x with ⟨r, _ | ⟨t, rest⟩, taken⟩ <;> simp [ExposureRead.take, takeCell, Function.comp_def]

@[simp] theorem setRead_get_same (s : State) (l : Link) (x : Option ExposureRead) :
    (setRead s l x).map.reads.get l = x := PerLink.get_set_same ..

theorem setRead_get_other (s : State) {l m : Link} (x : Option ExposureRead) (h : m ≠ l) :
    (setRead s l x).map.reads.get m = s.map.reads.get m := PerLink.get_set_other _ _ _ _ h

/-- Every outcome of a tube taken on one link: nothing to take, tubes left, or the request answered. -/
theorem takeTube_cases (s : State) (l : Link) :
    (s.map.reads.get l = none ∧ takeTube s l = s) ∨
    ∃ x, s.map.reads.get l = some x ∧
      (((x.take s).left ≠ [] ∧ takeTube s l = setRead s l (some (x.take s))) ∨
        ((x.take s).left = [] ∧ takeTube s l = answerRead s l (x.take s))) := by
  cases h : s.map.reads.get l with
  | none => exact .inl ⟨rfl, by simp [takeTube, h]⟩
  | some x =>
    refine .inr ⟨x, rfl, ?_⟩
    by_cases hl : (x.take s).left = []
    · exact .inr ⟨hl, by simp [takeTube, h, hl]⟩
    · exact .inl ⟨hl, by simp [takeTube, h, hl]⟩

/-- `t` differs from `s` at most in the read and the requests of link `l`. -/
structure OnlyReadOf (s t : State) (l : Link) : Prop where
  blocks : t = { s with map := t.map, lnk := t.lnk }
  map : t.map = { s.map with reads := t.map.reads }
  lnk : t.lnk = { s.lnk with links := t.lnk.links }
  reads : ∀ m, m ≠ l → t.map.reads.get m = s.map.reads.get m
  links : ∀ m, m ≠ l → t.lnk.links.get m = s.lnk.links.get m

theorem setRead_frame (s : State) (l : Link) (x : Option ExposureRead) : OnlyReadOf s (setRead s l x) l :=
  ⟨rfl, rfl, rfl, fun _ hm => setRead_get_other s _ hm, fun _ _ => rfl⟩

theorem answerRead_frame (s : State) (l : Link) (y : ExposureRead) : OnlyReadOf s (answerRead s l y) l :=
  ⟨rfl, rfl, rfl, fun _ hm => setRead_get_other s _ hm, fun _ hm => onLink_get_other _ _ hm⟩

@[simp] theorem answerRead_get_same (s : State) (l : Link) (y : ExposureRead) :
    (answerRead s l y).map.reads.get l = none := setRead_get_same ..

/-- A tube taken on one link changes that link's read and its requests, and nothing else. -/
theorem takeTube_frame (s : State) (l : Link) : OnlyReadOf s (takeTube s l) l := by
  rcases takeTube_cases s l with ⟨_, h⟩ | ⟨x, _, ⟨_, h⟩ | ⟨_, h⟩⟩ <;> rw [h]
  · exact ⟨rfl, rfl, rfl, fun _ _ => rfl, fun _ _ => rfl⟩
  · exact setRead_frame ..
  · exact answerRead_frame ..

/-- Every outcome of a read finished on one link: no read, or the request answered. -/
theorem finishRead_cases (s : State) (l : Link) :
    (s.map.reads.get l = none ∧ finishRead s l = s) ∨
      ∃ x, s.map.reads.get l = some x ∧ finishRead s l = answerRead s l (x.takeAll s) := by
  cases h : s.map.reads.get l with
  | none => exact .inl ⟨rfl, by simp [finishRead, h]⟩
  | some x => exact .inr ⟨x, rfl, by simp [finishRead, h]⟩

theorem finishRead_frame (s : State) (l : Link) : OnlyReadOf s (finishRead s l) l := by
  rcases finishRead_cases s l with ⟨_, h⟩ | ⟨x, _, h⟩ <;> rw [h]
  · exact ⟨rfl, rfl, rfl, fun _ _ => rfl, fun _ _ => rfl⟩
  · exact answerRead_frame ..

@[simp] theorem finishRead_get_same (s : State) (l : Link) : (finishRead s l).map.reads.get l = none := by
  rcases finishRead_cases s l with ⟨hr, h⟩ | ⟨x, _, h⟩ <;> rw [h]
  · exact hr
  · exact answerRead_get_same ..

/-- After every read is finished none is in progress. -/
theorem finishReads_none (s : State) (l : Link) : (finishReads s).map.reads.get l = none := by
  have hb := finishRead_frame (finishRead s .a) .b
  have he := finishRead_frame (finishRead (finishRead s .a) .b) .e
  simp only [finishReads, List.foldl]
  cases l
  · rw [he.reads .a (by decide), hb.reads .a (by decide)]
    exact finishRead_get_same ..
  · rw [he.reads .b (by decide)]
    exact finishRead_get_same ..
  · exact finishRead_get_same ..

/-- With no read in progress no tube is taken. -/
theorem takeTubes_idle {s : State} (h : ∀ l, s.map.reads.get l = none) : takeTubes s = s := by
  have hl : ∀ l, takeTube s l = s := fun l => by simp [takeTube, h l]
  simp [takeTubes, hl]

/-- A step with no command waiting. -/
theorem step_idle {s : State} (h : s.pending = []) : step s = .next (takeTubes s) := by
  simp [step, h]

/-! ## A read that nothing comes between -/

/-- A read held with tubes left, and no other in progress, comes to its reply when no command waits. -/
theorem read_comes_to_reply {s : State} {l : Link} {tag code : Byte} (hq : (s.lnk.links.get l).inService = none)
    (hp : s.pending = []) (hr : ∀ k, s.map.reads.get k = none) (x : ExposureRead) (hx : x.left ≠ []) :
    stepsTo x.left.length (heldOn (setRead s l (some x)) l tag code)
      (replied s l tag code (x.takeAll s).result (x.takeAll s).payload) := by
  obtain ⟨reply, left, taken⟩ := x
  induction left generalizing taken with
  | nil => exact absurd rfl hx
  | cons tube rest ih =>
    have hother : ∀ m, m ≠ l → ∀ t : State,
        t.map.reads.get m = none → takeTube t m = t := fun m _ t h => by simp [takeTube, h]
    have hpend : (heldOn (setRead s l (some ⟨reply, tube :: rest, taken⟩)) l tag code).pending = [] := hp
    refine ⟨_, step_idle hpend, ?_⟩
    have hone : takeTubes (heldOn (setRead s l (some ⟨reply, tube :: rest, taken⟩)) l tag code)
        = takeTube (heldOn (setRead s l (some ⟨reply, tube :: rest, taken⟩)) l tag code) l := by
      have h1 : ∀ m, m ≠ l → takeTube (heldOn (setRead s l (some ⟨reply, tube :: rest, taken⟩)) l tag code) m
          = heldOn (setRead s l (some ⟨reply, tube :: rest, taken⟩)) l tag code := fun m hm =>
        hother m hm _ ((setRead_get_other s _ hm).trans (hr m))
      have h2 : ∀ m, m ≠ l → ∀ t, t = takeTube (heldOn (setRead s l (some ⟨reply, tube :: rest, taken⟩)) l tag code) l →
          takeTube t m = t := fun m hm t ht =>
        hother m hm _ (ht ▸ ((takeTube_frame _ l).reads m hm).trans ((setRead_get_other s _ hm).trans (hr m)))
      simp only [takeTubes, List.foldl]
      cases l
      · rw [h2 .b (by decide) _ rfl, h2 .e (by decide) _ rfl]
      · rw [h1 .a (by decide), h2 .e (by decide) _ rfl]
      · rw [h1 .a (by decide), h1 .b (by decide)]
    rw [hone]
    have hget : (heldOn (setRead s l (some ⟨reply, tube :: rest, taken⟩)) l tag code).map.reads.get l
        = some ⟨reply, tube :: rest, taken⟩ := setRead_get_same ..
    have htake : ExposureRead.take (heldOn (setRead s l (some ⟨reply, tube :: rest, taken⟩)) l tag code)
        ⟨reply, tube :: rest, taken⟩ = ⟨reply, rest, taken ++ tube.map (takeCell s)⟩ := rfl
    have hset : ∀ y : Option ExposureRead,
        setRead (heldOn (setRead s l (some ⟨reply, tube :: rest, taken⟩)) l tag code) l y
          = heldOn (setRead s l y) l tag code := by
      intro y
      cases l <;> rfl
    simp only [takeTube, hget, htake]
    cases rest with
    | nil =>
      simp only [List.isEmpty_nil, if_true, List.length_nil, answerRead, hset]
      have hs : setRead s l none = s := by
        have := hr l
        simp only [setRead]
        rw [← this, PerLink.set_get_self]
        rfl
      rw [hs]
      have hz : ({ s.lnk.links.get l with inService := none } : LinkState) = s.lnk.links.get l := by rw [← hq]
      simp only [answerHeld, heldOn, onLink_onLink, replied, ExposureRead.takeAll, LinkState.answer,
        List.flatten_cons, List.flatten_nil, List.append_nil]
      simp only [onLink, hz]
      rfl
    | cons t ts =>
      simp only [List.isEmpty_cons, Bool.false_eq_true, if_false, hset]
      have := ih (taken ++ tube.map (takeCell s)) (by simp)
      simpa [ExposureRead.takeAll] using this

end Sys2Proof.Machine
end

