-- ==== Sys2Proof/Tests/Slice0.lean ====
section
/-! SUPPORT. The model's own tests: ill-formed commands refused, the manual's worked figures, one step of a
command of each family, and a state that meets the premises of each obligation. -/

namespace Sys2Proof.Tests

open Sys2Proof.Machine

-- One declaration after another: side by side, their kernel evaluations take too many threads.
set_option Elab.async false

/-! ## Helpers -/

/-- The state after one command. -/
def after (i : Instr) (s : State) : State :=
  match exec i s with
  | .next t => t
  | _ => s

/-- The newest response queued on link `l`. -/
def answered (s : State) (l : Link) : Option (Result × List Byte) :=
  (s.lnk.links.get l).queue.getLast?.map fun r => (r.result, r.payload)

/-- The kinds, subjects and details of the newest `n` events. -/
def newest (n : Nat) (s : State) : List (EventKind × Nat × Int) :=
  (s.evt.history.drop (s.evt.history.length - n)).map fun x => (x.kind, x.subject, x.detail)

/-- A channel with offset 0, trim 0 and Max Step 100. -/
def channelIn (state : ChannelState) (cause : Option FailureCause) (good : Option Int) (candidate : Option Candidate) :
    Channel :=
  { Channel.unused with
    state := state, cause := cause, lastGood := good.map fun v => { value := v, stamp := 0, age := 0 }
    candidate := candidate, config := some { offset := 0, trim := 0, maxStep := 100 } }

/-- A zone over both tubes of coil 0, High 9800, HighHigh 10200, Deadband 50, High and HighHigh enabled. -/
def zoneIn (mode : ZoneMode) (policy : AckPolicy) : Zone :=
  { coil := 0, lowTube := 0, highTube := 1, lowElevation := 0, highElevation := 2, enabled := 3
    highLimit := 9800, highHighLimit := 10200, spreadLimit := 500, rateLimit := 100, rateWindow := 6
    qualityFloor := 4, qualityCount := 0, deadband := 50, mode := mode, repeatInterval := 3, ackPolicy := policy }

/-- Coil 0 of 2 tubes of 3 elevations (cells 0 to 5) and coil 3 of 2 tubes of 2 (cells 6 to 9); channels 0 and 2
Healthy, 1 Failed, 3 Suspect, 4 Acquiring, 5 Retired; primaries of cells 0, 1, 2, and channel 2 the alternate of
cell 1; ten sights with interleave 3, of which sight 0 names cell 0 and sight 3 cell 4; zone 4; Link A with
edit rights. -/
def bench : State :=
  let r := State.reset
  { r with
    cfg :=
      { r.cfg with
        coils := [(0, { tubes := 2, elevations := 3, design := 9600, step := 100 }),
          (3, { tubes := 2, elevations := 2, design := 9600, step := 100 })]
        primaries := [(0, 0), (1, 1), (2, 2)]
        alternates := [(1, { channel := 2, offset := 40 })]
        rightsA := true }
    acq :=
      { r.acq with
        channels := [(0, channelIn .healthy none (some 9881) none),
          (1, channelIn .failed (some .unconfirmed) none none),
          (2, channelIn .healthy none (some 9260) none),
          (3, channelIn .suspect none (some 9130) (some { value := 9460, tally := 1, suspectAge := 0 })),
          (4, channelIn .acquiring none none none),
          (5, channelIn .retired none none none)] }
    scn := { r.scn with sightCount := 10, sights := [(0, 0), (3, 4)], interleave := 3 }
    alm := { r.alm with zones := [(4, zoneIn .latching .both)] }
    map := { r.map with retainedGeometry := [(0, { tubes := 2, elevations := 3 }), (3, { tubes := 2, elevations := 2 })] } }

/-- `s` mapping, with its pass timer running. -/
def mapping (s : State) : State :=
  (s.withMap { s.map with mapState := .mapping }).withTmb { s.tmb with passCounter := some 5 }

/-- A pass of `s` at a tube of a coil. -/
def passAt (phase : Phase) (coil tube : Nat) (s : State) : State :=
  s.withMap
    { s.map with
      passNumber := 7
      pass := some
        { number := 7, generation := s.cfg.generation, phase := phase, coil := coil, tube := tube
          tubesWritten := 0, wideGaps := 0, anchored := 0 } }

/-- A sweep of `s` at step `n`. -/
def sweeping (kind : SweepKind) (n attempt run : Nat) (s : State) : State :=
  s.withScn { s.scn with sweep := some { Sweep.fresh kind with nextStep := n, attempt := attempt, missedRun := run } }

/-- A freeze of `s` at a tube, or at the end of its walk. -/
def freezing (clearing : Bool) (next : Option (Nat × Nat)) (s : State) : State :=
  s.withFrz { s.frz with freeze := some { clearing := clearing, starter := .a, next := next } }

/-- `s` with a request of link `l` held in service. -/
def holding (l : Link) (code : Byte) (s : State) : State := heldOn s l 9 code

/-- `s` with the record of zone 4 replaced. -/
def alarmed (x : AlarmRecord) (s : State) : State := s.withAlm { s.alm with records := [(4, x)] }

/-- A record of a zone with occurrence 37 and condition High. -/
def recordIn (state : AlarmState) (acks : AckSet) (acknowledged : CondSet) : AlarmRecord :=
  { state := state, conditions := 1, raised := 1, acknowledged := acknowledged, occurrence := 37, acks := acks
    repeatCount := 0 }

/-! ## Ill-formed commands are refused, each by its own check -/

theorem test_wf_event_operands :
    (Instr.reading true 512 0 0).wf = false ∧ (Instr.reading true 0 32768 0).wf = false ∧
    (Instr.reading true 0 0 256).wf = false ∧ (Instr.headFault true 0).wf = false ∧
    (Instr.headFault true 256).wf = false ∧ (Instr.unknownCommandCode .a 0 0x01 []).wf = false ∧
    (Instr.unknownCommandCode .a 0 0x13 (List.replicate 481 0)).wf = false := by decide +kernel

theorem test_wf_read_operands :
    (Instr.readCells .a 0 256 0 0 0).wf = false ∧ (Instr.readCells .a 0 0 256 0 0).wf = false ∧
    (Instr.readCells .a 0 0 0 65536 0).wf = false ∧ (Instr.readCells .a 0 0 0 0 256).wf = false ∧
    (Instr.readHotList .a 0 256).wf = false ∧ (Instr.readZones .a 0 256 0 0).wf = false ∧
    (Instr.readZones .a 0 0 256 0).wf = false ∧ (Instr.readZones .a 0 0 0 256).wf = false ∧
    (Instr.readChannel .a 0 256).wf = false ∧ (Instr.readChannelStatistics .a 0 256 0 false).wf = false ∧
    (Instr.readChannelStatistics .a 0 0 256 false).wf = false ∧ (Instr.readSights .a 0 65536 0).wf = false ∧
    (Instr.readSights .a 0 0 256).wf = false ∧ (Instr.readScanRecords .a 0 65536 0).wf = false ∧
    (Instr.readScanRecords .a 0 0 256).wf = false ∧ (Instr.readExposure .a 0 65536 0).wf = false ∧
    (Instr.readExposure .a 0 0 256).wf = false ∧ (Instr.readAnchors .a 0 (.byCell 65536 0)).wf = false ∧
    (Instr.readAnchors .a 0 (.byCell 0 256)).wf = false ∧ (Instr.readAnchors .a 0 (.byChannel 256 0)).wf = false ∧
    (Instr.readAnchors .a 0 (.byChannel 0 256)).wf = false ∧ (Instr.zoneExposureTotal .a 0 256 0).wf = false ∧
    (Instr.zoneExposureTotal .a 0 0 65536).wf = false ∧ (Instr.readEvents .a 0 256).wf = false := by decide

theorem test_wf_open_operands :
    (Instr.requestSweep .a 0 (.coil 256)).wf = false ∧ (Instr.requestSweep .a 0 (.other 1)).wf = false ∧
    (Instr.requestSweep .a 0 (.other 256)).wf = false ∧ (Instr.acknowledge .a 0 256 0).wf = false ∧
    (Instr.acknowledge .a 0 0 65536).wf = false ∧ (Instr.clearPeaks .a 0 (.coil 256)).wf = false ∧
    (Instr.clearExposure .a 0 256).wf = false ∧ (Instr.setClock .a 0 4294967296).wf = false := by decide

theorem test_wf_edit_operands :
    (Instr.defineCoil .a 0 65536 0 1 1 5000 50).wf = false ∧ (Instr.defineCoil .a 0 0 256 1 1 5000 50).wf = false ∧
    (Instr.defineCoil .a 0 0 0 256 1 5000 50).wf = false ∧ (Instr.defineCoil .a 0 0 0 1 256 5000 50).wf = false ∧
    (Instr.defineCoil .a 0 0 0 1 1 65536 50).wf = false ∧ (Instr.defineCoil .a 0 0 0 1 1 5000 65536).wf = false ∧
    (Instr.deleteCoil .a 0 65536 0).wf = false ∧ (Instr.deleteCoil .a 0 0 256).wf = false ∧
    (Instr.defineChannel .a 0 65536 0 .remove).wf = false ∧ (Instr.defineChannel .a 0 0 256 .remove).wf = false ∧
    (Instr.defineChannel .a 0 0 0 (.configuration 32768 0 1)).wf = false ∧
    (Instr.defineChannel .a 0 0 0 (.configuration 0 (-129) 1)).wf = false ∧
    (Instr.defineChannel .a 0 0 0 (.configuration 0 0 65536)).wf = false ∧
    (Instr.retireChannel .a 0 65536 0).wf = false ∧ (Instr.retireChannel .a 0 0 256).wf = false ∧
    (Instr.returnToService .a 0 65536 0).wf = false ∧ (Instr.returnToService .a 0 0 256).wf = false ∧
    (Instr.assignAnchor .a 0 65536 0 0).wf = false ∧ (Instr.assignAnchor .a 0 0 65536 0).wf = false ∧
    (Instr.assignAnchor .a 0 0 0 256).wf = false ∧ (Instr.releaseAnchor .a 0 65536 0).wf = false ∧
    (Instr.releaseAnchor .a 0 0 65536).wf = false ∧ (Instr.assignAlternate .a 0 65536 0 0 0).wf = false ∧
    (Instr.assignAlternate .a 0 0 65536 0 0).wf = false ∧ (Instr.assignAlternate .a 0 0 0 256 0).wf = false ∧
    (Instr.assignAlternate .a 0 0 0 0 (-32769)).wf = false ∧ (Instr.releaseAlternate .a 0 65536 0).wf = false ∧
    (Instr.releaseAlternate .a 0 0 65536).wf = false := by decide

theorem test_wf_table_edit_operands :
    (Instr.defineSights .a 0 65536 0 0 []).wf = false ∧ (Instr.defineSights .a 0 0 65536 0 []).wf = false ∧
    (Instr.defineSights .a 0 0 0 65536 []).wf = false ∧
    (Instr.defineSights .a 0 0 0 0 (List.replicate 129 none)).wf = false ∧
    (Instr.defineSights .a 0 0 0 0 [some 65536]).wf = false ∧ (Instr.setInterleave .a 0 65536 1).wf = false ∧
    (Instr.setInterleave .a 0 0 65536).wf = false ∧ (Instr.deleteZone .a 0 65536 0).wf = false ∧
    (Instr.deleteZone .a 0 0 256).wf = false ∧ (Instr.setParameters .a 0 65536 [⟨1, 1⟩]).wf = false ∧
    (Instr.setParameters .a 0 0 []).wf = false ∧
    (Instr.setParameters .a 0 0 (List.replicate 17 ⟨1, 1⟩)).wf = false ∧
    (Instr.setParameters .a 0 0 [⟨256, 1⟩]).wf = false ∧
    (Instr.setParameters .a 0 0 [⟨1, 2147483648⟩]).wf = false ∧
    (Instr.setEditRights .a 0 65536 true true).wf = false ∧
    (Instr.setAutoStart .a 0 65536 true).wf = false := by decide +kernel

/-- A Define Zone that can be sent. -/
def zoneArgs : ZoneArgs :=
  { coil := 0, lowTube := 0, highTube := 1, lowElevation := 0, highElevation := 2, enabled := 3
    highLimit := 9800, highHighLimit := 10200, spreadLimit := 500, rateLimit := 100, rateWindow := 6
    qualityFloor := 4, qualityCount := 0, deadband := 50, mode := 0, repeatInterval := 3, ackPolicy := 1 }

theorem test_wf_zone_operands :
    zoneArgs.wf = true ∧ (Instr.defineZone .a 0 65536 0 zoneArgs).wf = false ∧
    (Instr.defineZone .a 0 0 256 zoneArgs).wf = false ∧
    ({ zoneArgs with coil := 256 }).wf = false ∧ ({ zoneArgs with lowTube := 256 }).wf = false ∧
    ({ zoneArgs with highTube := 256 }).wf = false ∧ ({ zoneArgs with lowElevation := 256 }).wf = false ∧
    ({ zoneArgs with highElevation := 256 }).wf = false ∧ ({ zoneArgs with highLimit := 32768 }).wf = false ∧
    ({ zoneArgs with highHighLimit := -32769 }).wf = false ∧ ({ zoneArgs with spreadLimit := 65536 }).wf = false ∧
    ({ zoneArgs with rateLimit := 65536 }).wf = false ∧ ({ zoneArgs with rateWindow := 256 }).wf = false ∧
    ({ zoneArgs with qualityFloor := 256 }).wf = false ∧ ({ zoneArgs with qualityCount := 256 }).wf = false ∧
    ({ zoneArgs with deadband := 65536 }).wf = false ∧ ({ zoneArgs with mode := 256 }).wf = false ∧
    ({ zoneArgs with repeatInterval := 256 }).wf = false ∧ ({ zoneArgs with ackPolicy := 256 }).wf = false := by
  decide

/-- No row of the table gives bits, so no word spells a command. -/
theorem test_no_table_bits : decodeTableWord 16 0x2101 = none ∧ State.reset.withFetchWord 16 0x2101 = State.reset :=
  ⟨rfl, rfl⟩

/-! ## The manual's worked figures -/

/-- The check values of R23 and R162, over the bytes 0x31 to 0x39. -/
theorem test_check_sequences :
    crc8 [0x31, 0x32, 0x33, 0x34, 0x35, 0x36, 0x37, 0x38, 0x39] = 0xF4 ∧
    crc16 [0x31, 0x32, 0x33, 0x34, 0x35, 0x36, 0x37, 0x38, 0x39] = 0x29B1 := by decide +kernel

/-- The geometry of section 1.1: coils 0, 1, 3 and 5. -/
def worked : Geometry :=
  [(0, ⟨40, 6⟩), (1, ⟨40, 6⟩), (3, ⟨32, 8⟩), (5, ⟨64, 4⟩)]

theorem test_worked_geometry :
    cellTotal worked = 992 ∧ baseCell worked 3 = 480 ∧ baseCell worked 5 = 736 ∧
    placeOf worked 500 = some { coil := 3, tube := 2, elevation := 4 } ∧ placeOf worked 992 = none := by
  decide +kernel

/-- The corrections of section 2.3. -/
theorem test_worked_corrections :
    correctedRaw { offset := -12, trim := 7, maxStep := 1 } 9876 = 9881 ∧
    correctedRaw { offset := 30, trim := -9, maxStep := 1 } 8500 = 8520 ∧
    correctedRaw { offset := 0, trim := 2, maxStep := 1 } 2000 = 2001 ∧
    correctedRaw { offset := 0, trim := 2, maxStep := 1 } (-1000) = -1001 ∧
    judgeInput { offset := 0, trim := 2, maxStep := 1 } (-1000) false = .valid (-500) true := by decide +kernel

/-- Samples 4, 6, 7 and 9 of the sequence of section 2.4: dismissed, lost, replaced, confirmed. -/
theorem test_worked_samples :
    let p := Parameters.default
    let suspect (g v : Int) (tally age : Nat) := channelIn .suspect none (some g) (some ⟨v, tally, age⟩)
    ((suspect 9130 9470 2 1).sample p 0 100 (.valid 9150 false)).2 = [(.channelRecovered, 0)] ∧
    ((suspect 9150 9700 1 0).sample p 0 100 .lost).1.candidate = some ⟨9700, 1, 1⟩ ∧
    ((suspect 9150 9700 1 1).sample p 0 100 (.valid 9320 false)).1.candidate = some ⟨9320, 1, 2⟩ ∧
    ((suspect 9150 9390 2 3).sample p 0 100 (.valid 9440 false)).1.lastGood = some ⟨9440, 0, 0⟩ := by decide +kernel

/-- The steps of 10 sights with interleave 3 (R45). -/
theorem test_worked_interleave :
    (List.range 10).map (stepSight { State.reset.scn with sightCount := 10, interleave := 3 })
      = [0, 3, 6, 9, 2, 5, 8, 1, 4, 7] := by decide

/-- The tubes of section 4.5: interpolation, the falling profile, and a mean of neighbours. -/
theorem test_worked_tubes :
    interpolated (0, 9120) (3, 9575) 1 = 9272 ∧ interpolated (0, 9120) (3, 9575) 2 = 9423 ∧
    (List.range' 1 3).map (interpolated (0, 9400) (4, 9099)) = [9325, 9249, 9174] ∧
    neighbourValue (some 8891) (some 8950) = some 8921 := by decide +kernel

/-- The comparisons of section 5.3. -/
theorem test_worked_biases :
    movedBias 2 150 230 = 170 ∧ movedBias 2 150 143 = 149 ∧ movedBias 3 0 300 = 37 := by decide +kernel

/-- The multipliers of R108. -/
theorem test_worked_multipliers :
    ([-25, 0, 1, 99, 150, 281, 749, 750, 1500, 3400].map fun x => multiplier 9600 100 (9600 + x))
      = [0, 0, 1, 1, 2, 4, 128, 128, 32768, 32768] ∧
    ([-25, 0, 1, 99, 150, 281, 749, 750, 1500, 3400].map fun x => multiplier 9600 50 (9600 + x))
      = [0, 0, 1, 2, 8, 32, 16384, 32768, 32768, 32768] ∧
    exposureAfter 4294900000 5 32768 = 4294967295 := by decide +kernel

/-- The rate window of section 7.2, before pass 2207. -/
def workedWindow : List RateEntry :=
  [⟨2200, some 9815, 41995⟩, ⟨2201, some 9821, 42000⟩, ⟨2202, some 9830, 42005⟩, ⟨2203, some 9842, 42010⟩,
    ⟨2204, some 9851, 42015⟩, ⟨2205, some 9860, 42020⟩, ⟨2206, some 9871, 42025⟩]

theorem test_worked_rate :
    rateOf workedWindow 6 (some 9881) 42030 = some 120 ∧ rateOf workedWindow 6 (some 9870) 42030 = some 98 ∧
    rateOf (workedWindow.eraseIdx 2) 6 (some 9881) 42030 = some 113 ∧ rateOf workedWindow 8 (some 9881) 42030 = none := by
  decide +kernel

/-- Passes 501, 503 and 505 of the latching alarm of section 7.3. -/
theorem test_worked_alarm :
    let z := zoneIn .latching .both
    alarmStep z 1 { AlarmRecord.reset with occurrence := 36 }
      = (recordIn .activeUnacked .empty 0, some (.alarmRaised, 37 + 65536)) ∧
    (alarmStep z 3 (recordIn .activeAcked ⟨true, true⟩ 1)).2 = some (.alarmRaised, 38 + 65536 * 3) ∧
    (alarmStep z 0 (recordIn .activeUnacked .empty 0)).2 = some (.alarmCleared, 37 + 65536) := by decide +kernel

/-- The read of coil 3 from index 252 (section 8.4), and the cell entry of section 10.5. -/
theorem test_worked_cells :
    cellsRead 480 256 252 6 = [732, 733, 734, 735, 480, 481] ∧ cellsTaken 256 40 = 32 ∧ cellsTaken 8 20 = 8 ∧
    encCellLong 416 { value := some 9881, quality := .measured, source := some 35, passStamp := 1207, heldAge := 0 }
        (some { value := 9881, stamp := 5012300, pass := 1207 })
      = [0xB9, 0xA0, 0x26, 0x99, 0x00, 0x23, 0x00, 0x00, 0x04, 0xB7, 0x26, 0x99, 0x00, 0x00, 0x04, 0xB7,
          0x00, 0x4C, 0x7B, 0x4C] := by decide +kernel

/-- The release detail 297 of section 5.2: channel 41, cause 2. -/
theorem test_worked_release : releaseDetail 41 2 = 297 := by decide

/-! ## One step of commands of each family -/

theorem test_step_takes_front :
    step (State.reset.withPending [.clockSecond, .sampleExpiry])
      = .next ((State.reset.withTmb { State.reset.tmb with uptime := 1, heaterClock := 1 }).withPending [.sampleExpiry]) :=
  rfl

/-- The bench with cell 0 at an exposure of 100 and cell 4 at 7. -/
def exposed : State := bench.withMap { bench.map with exposure := [(0, 100), (4, 7)] }

/-- Read Exposure of cells 0 to 5, with Clear Exposure of coil 0 between its two tubes: tube 0 as before the clear and
tube 1 cleared (R113). All cells are Empty, so every multiplier is 0. -/
theorem test_read_meets_clear :
    let held := after (.readExposure .b 1 0 6) exposed
    answered held .b = none ∧
    answered (takeTubes (after (.clearExposure .a 2 0) held)) .b
      = some (.ok, [0, 0, 0, 100] ++ List.replicate 38 0 ++ [0x25, 0x80, 0, 100]) ∧
    answered (takeTubes held) .b
      = some (.ok, [0, 0, 0, 100] ++ List.replicate 27 0 ++ [7] ++ List.replicate 10 0 ++ [0x25, 0x80, 0, 100]) := by
  decide +kernel

/-- A Read Exposure of cells 0 to 5 that meets a Delete Coil of its coil between its two tubes: it shows both tubes as
they stood before the edit, and no read is left (R5, R16). -/
theorem test_read_before_coil_edit :
    let held := after (.readExposure .b 1 0 6) exposed
    let t := after (.deleteCoil .a 2 0 0) held
    answered t .b = answered (takeTubes held) .b ∧ t.map.reads = ⟨none, none, none⟩ ∧ t.coil 0 = none ∧
    answered t .a = some (.ok, [0, 1]) := by decide +kernel

/-- Zone Exposure Total of zone 4, cells 0 to 5, with and without the clear between its two tubes (R120, R121). -/
theorem test_total_meets_clear :
    let held := after (.zoneExposureTotal .b 1 4 0) exposed
    let total (sum : Byte) : List Byte :=
      [4, 0, 0, 0, 6] ++ [0, 0, 0, 0, 0, 0, 0, sum] ++ [0, 0] ++ [0, 0, 0, 100] ++ [0, 0, 0, 0, 0]
    answered (takeTubes (after (.clearExposure .a 2 0) held)) .b = some (.ok, total 100) ∧
    answered (takeTubes held) .b = some (.ok, total 107) := by decide +kernel

/-- A pass that is handed off is shown once, whichever way the controller shows it (R88). -/
theorem test_handed_pass_shown_once :
    let s := (passAt .handingOff 3 1 (mapping bench)).withMap
      { (passAt .handingOff 3 1 (mapping bench)).map with lastPass := some (lastPassOf bench (newPass bench) none) }
    (shownPass s).isSome = !(shownLastPass s).isSome := by
  intro s
  have h : handingOff s = true := by decide
  simp only [shownPass, shownLastPass, h, Bool.true_and]
  cases Config.handingOffInProgress <;> decide +kernel

/-- A read-status frame, byte by byte: its last byte answers as the row does. -/
theorem test_frame_reads_status :
    let s := onLink State.reset .a fun x => { x with receiver := .receiving [0x00, 0x02, 0x05, 0x01, 0x05] }
    after (.linkByte .a 0x74 false false) s = after (.readStatus .a 5) State.reset := by decide +kernel

/-- A frame broken in its last byte is counted and discarded. -/
theorem test_frame_broken :
    let s := onLink State.reset .a fun x => { x with receiver := .receiving [0x00, 0x02, 0x05, 0x01, 0x05] }
    ((after (.linkByte .a 0x74 true false) s).lnk.links.a.frameErrors,
      (after (.linkByte .a 0x74 true false) s).lnk.links.a.receiver) = (1, .discarding) := by decide +kernel

/-- A good reply for slot 0 whose input 0 reads 9876: the channel of section 2.4.2 stays Healthy at 9876, and the
other channels of the slot judge a reading of 0. -/
theorem test_module_reply :
    let s := bench.withAcq { bench.acq with poll := some { slot := 0, reread := false } }
    let t := after (.moduleReply [0, 38, 148, 0, 0, 0, 0, 0, 0, 0, 0, 0, 0, 0, 0, 0, 0, 0, 0, 106]) s
    ((t.channel 0).usableValue, (t.channel 2).state, (t.channel 4).state, (t.slot 0).lastOutcome, t.acq.poll)
      = (some 9876, .suspect, .healthy, .good, none) := by decide +kernel

/-- A module fault ends the poll Fault, and no reading is used. -/
theorem test_module_fault :
    let s := bench.withAcq { bench.acq with poll := some { slot := 0, reread := false } }
    let t := after (.moduleReply [0, 38, 148, 0, 0, 0, 0, 0, 0, 0, 0, 0, 0, 0, 0, 0, 0, 0, 1, 109]) s
    ((t.channel 0).usableValue, (t.channel 0).lostRun, (t.slot 0).fault) = (some 9881, 1, true) := by decide +kernel

/-- A Reading for sight 0: its scan record, and the comparison with channel 0 at 9881 (R101, R103). -/
theorem test_reading :
    let t := after (.reading true 0 9681 40) (sweeping .full 0 1 0 bench)
    (Table.find t.scn.scans 0, (t.coilBias 0).bias, t.scn.sweep.map Sweep.nextStep)
      = (some { sight := 0, temperature := 9681, signal := 40, stamp := 0 }, 25, some 1) := by decide +kernel

/-- The fourth Missed step in a row ends the sweep Faulted, with detail −1 where no Head Fault came (R50, R62). -/
theorem test_reply_timeout_faults :
    newest 1 (after .replyTimeout (sweeping .full 3 2 3 bench)) = [(.sweepFaulted, 255, -1)] := by decide +kernel

/-- A tube write of coil 0's tube 0: elevations Measured, Substituted and Measured. -/
theorem test_tube_step :
    let t := after .tubeStep (passAt .walking 0 0 (mapping bench))
    (t.cell 0).value = some 9881 ∧ (t.cell 1).value = some 9300 ∧ (t.cell 1).quality = .substituted ∧
      (t.cell 2).value = some 9260 ∧ t.accumulator 0 = 20 ∧ t.peak 1 = some ⟨9300, 0, 7⟩ ∧
      t.map.pass.map Pass.tube = some 1 := by decide +kernel

/-- The last tube completes the pass; coil 3 gained no anchor, so no establishing pass is counted (R84, R85). -/
theorem test_pass_completes :
    let t := after .tubeStep (passAt .walking 3 1 (mapping bench))
    (t.map.lastCompleted, t.map.establishCount, (t.map.lastPass.bind LastPass.unanchored))
      = (7, 0, some 0x09) := by decide +kernel

/-- A pass expiry starts pass 8 at the lowest-numbered coil. -/
theorem test_pass_expiry :
    (after .passExpiry ((mapping bench).withMap { (mapping bench).map with passNumber := 7 })).map.pass.map
      (fun p => (p.number, p.coil, p.tube)) = some (8, 0, 0) := by decide +kernel

/-- The evaluation of a pass whose cell 0 holds 9881 raises High of zone 4 (R126, R132). -/
theorem test_hand_off :
    let s := (passAt .handingOff 3 1 (mapping bench))
    let t := after .handOffEvaluation
      (s.withMap { s.map with cells := [(0, freshRecord 7 9881 .measured (some 0))] })
    ((t.alarm 4).state, newest 1 t, t.alm.hotList.map HotEntry.cell, t.map.pass)
      = (.activeUnacked, [(.alarmRaised, 4, 1 + 65536)], [0], none) := by decide +kernel

/-- The second acknowledgement completes policy Both (R134). -/
theorem test_acknowledge :
    let t := after (.acknowledge .b 1 4 37) (alarmed (recordIn .activeUnacked ⟨true, false⟩ 0) (mapping bench))
    (t.alarm 4).state = .activeAcked ∧ (t.alarm 4).acknowledged = 1 ∧
      newest 1 t = [(.alarmAcked, 4, 37 + 65536 * 2)] ∧ answered t .b = some (.ok, [2, 0, 37, 3]) := by decide +kernel

/-- An acknowledgement of an older occurrence is refused with the record's own (R133). -/
theorem test_acknowledge_stale :
    answered (after (.acknowledge .a 1 4 36) (alarmed (recordIn .activeUnacked .empty 0) bench)) .a
      = some (.staleOccurrence, [1, 0, 37, 0]) := by decide +kernel

/-- A clearing tube copy takes the peak with it (R144, R145). -/
theorem test_tube_copy :
    let s := freezing true (some (0, 0)) (bench.withMap { bench.map with peaks := [(2, ⟨9300, 4, 6⟩), (3, ⟨9400, 4, 6⟩)] })
    let t := after .tubeCopy s
    (t.frz.peakCopies, t.map.peaks, t.frz.freeze.map Freeze.next)
      = ([(2, ⟨9300, 4, 6⟩)], [(3, ⟨9400, 4, 6⟩)], some (some (0, 1))) := by decide +kernel

/-- The completion answers the starter OK and the joined link MERGED (R146). -/
theorem test_freeze_completion :
    let t := after .freezeCompletion (holding .e 0x21 (holding .a 0x21 (freezing false none bench)))
    answered t .a = some (.ok, [0, 0, 0, 1, 0, 0, 0, 0]) ∧ answered t .e = some (.merged, [0, 0, 0, 1, 0, 0, 0, 0]) ∧
      t.frz.freezeNumber = 1 ∧ newest 1 t = [(.freezeTaken, 0, 0)] := by
  decide +kernel

/-- An edit raises the generation and reports it; the sender of an older one is refused (R177). -/
theorem test_edit_generation :
    let t := after (.setAutoStart .a 1 0 true) bench
    t.cfg.generation = 1 ∧ t.cfg.autoStart = true ∧ t.cfg.unsavedEdits = true ∧ answered t .a = some (.ok, [0, 1]) ∧
      newest 1 t = [(.configChanged, 0, 1)] ∧
      answered (after (.setAutoStart .a 1 1 true) bench) .a = some (.staleGeneration, [0, 0]) := by
  decide +kernel

/-- Link B holds no edit rights on the bench (R167). -/
theorem test_edit_rights :
    answered (after (.setAutoStart .b 1 0 true) bench) .b = some (.notPermitted, []) := by decide +kernel

/-- Releasing channel 2 from cell 2 drops the alternate of cell 1 with cause 2 (R93). -/
theorem test_release_anchor :
    let t := after (.releaseAnchor .a 1 0 2) bench
    (t.cfg.alternates, newest 2 t) = ([], [(.configChanged, 0, 1), (.alternateReleased, 1, 2 + 128 * 2)]) := by
  decide +kernel

/-- A coil edit that moves coil 3's cells blanks them and drops the frozen map (R7, R9). -/
theorem test_define_coil :
    let s := bench.withMap { bench.map with exposure := [(5, 70), (6, 80)] }
    let t := after (.defineCoil .a 1 0 1 2 2 4000 100) s
    (t.map.exposure, (t.coil 1).map CoilDef.design, t.cellTotal, answered t .a)
      = ([(5, 70)], some 5000, 14, some (.clamped, [0, 1])) := by decide +kernel

/-- Parameter values outside their rows are clamped (R178). -/
theorem test_parameter_rows :
    [(4, 0), (4, 1), (4, 59), (4, 60), (4, 86401), (15, -501), (16, 25), (1, 0)].map
        (fun x : Nat × Int => clampParameter x.1 x.2)
      = [0, 60, 60, 60, 86400, -500, 24, 1] := by decide

/-- A read across the coil's end, and a frozen read of an empty frozen map (R147, R148). -/
theorem test_read_cells :
    ((answered (after (.readCells .b 1 0 3 2 200) bench) .b).map Prod.fst,
      answered (after (.readCells .b 1 1 3 2 2) bench) .b) = (some .clamped, some (.notConfigured, [])) := by
  decide +kernel

/-- Zone 4 in a live Read Zones opens with Defined and a present definition, and in a frozen one with Defined and an
absent definition (R150, R174). -/
theorem test_read_zones_definition :
    let frozen := after .freezeCompletion (freezing false none bench)
    ((answered (after (.readZones .b 1 0 4 1) bench) .b).map fun x => x.2.take 4,
      (answered (after (.readZones .b 1 1 4 1) frozen) .b).map fun x => x.2.take 4)
      = (some [1, 1, 0, 0], some [1, 0, 0, 0]) := by decide +kernel

/-- Read Events from a new link: three entries, and the cursor after the last (R155). -/
theorem test_read_events :
    let t := after (.readEvents .a 1 8) State.reset
    (t.evt.links.a.cursor, (answered t .a).map fun x => x.2.take 14)
      = (3, some [0, 0, 0, 0, 3, 0, 0, 0, 0, 0, 0, 0, 3, 3]) := by decide +kernel

/-- Power-on reset with both straps high: the straps are sampled, and the rest is as after reset (R161, R184). -/
theorem test_power_on_reset :
    after (.powerOnReset true true) bench
      = State.reset.withLnk { State.reset.lnk with strap1 := true, strap0 := true } := by decide +kernel

/-! ## Premises: states and operands that meet the hypotheses of each obligation, clause by clause -/

/-- Link `l` of the reset state with its part of LNK replaced. -/
def linkAs (l : Link) (x : LinkState) : State := onLink State.reset l fun _ => x

/-- `n` responses that wait. -/
def waiting (n : Nat) : List Response := List.replicate n { tag := 1, command := 0x01, result := .ok, payload := [] }

/-- The sequence counter at `n`, with the history that R151 gives it. -/
def history (n : Nat) : State :=
  State.reset.withEvt
    { State.reset.evt with
      nextSequence := n
      history := (List.range' (n - 128) (min n 128)).map fun k =>
        { sequence := k, stamp := 0, clockSet := false, kind := .configChanged, subject := 0, detail := 0 } }

/-- The tables of a state are in order, as a test. -/
def inOrder (s : State) : Bool :=
  Table.rising s.acq.channels && Table.noBlank .unused s.acq.channels && Table.rising s.acq.slots
    && Table.noBlank .reset s.acq.slots && Table.rising s.scn.sights && Table.rising s.scn.scans
    && Table.rising s.scn.biases && Table.noBlank .reset s.scn.biases && Table.rising s.map.cells
    && Table.noBlank .blank s.map.cells && Table.rising s.map.peaks && Table.rising s.map.exposure
    && Table.noBlank 0 s.map.exposure && Table.rising s.alm.zones && Table.rising s.alm.records
    && Table.noBlank .reset s.alm.records && Table.rising s.alm.windows && Table.rising s.alm.figures
    && Table.rising s.frz.cellCopies && Table.noBlank .blank s.frz.cellCopies && Table.rising s.frz.peakCopies
    && Table.rising s.cfg.coils && Table.rising s.cfg.primaries && Table.rising s.cfg.alternates
    && s.nvs.configImages.isEmpty && s.nvs.exposureImages.isEmpty

theorem canonical_of_inOrder {s : State} (h : inOrder s = true) : TablesCanonical s := by
  simp only [inOrder, Bool.and_eq_true, List.isEmpty_iff] at h
  constructor <;> first | exact ⟨by tauto, by tauto⟩ | tauto | simp [h]

theorem ready_of {s : State} {l : Link}
    (h : ((s.lnk.links.get l).inService = none ∧ (s.lnk.links.get l).queue.length ≤ 6) ∧ s.holdsRights l = true) :
    Ready s l := h

theorem free_of {s : State} {l : Link}
    (h : (s.lnk.links.get l).inService = none ∧ (s.lnk.links.get l).queue.length ≤ 6) : Free s l := h

/-- Links A and E hold edit rights on the bench and B does not; a queue of 6 responses is the longest that is free. -/
theorem test_premises_links :
    Ready bench .a ∧ Ready bench .e ∧ Free bench .b ∧ bench.holdsRights .b = false ∧
    Free (linkAs .a { LinkState.reset with queue := waiting 6 }) .a :=
  ⟨ready_of (by decide), ready_of (by decide), free_of (by decide), by decide, free_of (by decide)⟩

theorem test_premises_canonical :
    TablesCanonical bench ∧ TablesCanonical (mapping bench) ∧
    TablesCanonical (passAt .walking 0 0 (mapping bench)) ∧ TablesCanonical (sweeping .full 0 1 0 bench) :=
  ⟨canonical_of_inOrder (by decide), canonical_of_inOrder (by decide), canonical_of_inOrder (by decide),
    canonical_of_inOrder (by decide)⟩

theorem test_premises_LinkByteMovesReceiver :
    (linkAs .a .reset).lnk.links.a.receiver = .hunting ∧
    (linkAs .a { LinkState.reset with receiver := .discarding }).lnk.links.a.receiver = .discarding ∧
    (linkAs .a { LinkState.reset with receiver := .receiving [] }).lnk.links.a.receiver = .receiving [] ∧
    ([] : List Byte).length = 0 := by decide

/-- Buffers whose next byte completes a Length of 1, 2, 482 and 483, and a frame whose next byte is its last,
with a good and with a bad CRC; the byte before it is the last that only extends. -/
theorem test_premises_FrameJudgedAtLengthAndCrc :
    let holds (buffer : List Byte) : Prop :=
      ((linkAs .a { LinkState.reset with receiver := .receiving buffer }).lnk.links.get .a).receiver = .receiving buffer
    (holds [0x00] ∧ [(0x00 : Byte)].length = 1 ∧ frameLength [0x00, 0x01] < 2) ∧
    (holds [0x01] ∧ 482 < frameLength [0x01, 0xE3]) ∧
    (2 ≤ frameLength [0x00, 0x02] ∧ frameLength [0x01, 0xE2] ≤ 482) ∧
    (1 ≤ [(0x00 : Byte)].length ∧ [(0x00 : Byte)].length + 1 < frameLength [0x00, 0x02] + 4) ∧
    (holds [0x00, 0x02, 0x05, 0x01] ∧
      [(0x00 : Byte), 0x02, 0x05, 0x01].length + 1 < frameLength [0x00, 0x02, 0x05, 0x01, 0x05] + 4) ∧
    (holds [0x00, 0x02, 0x05, 0x01, 0x05] ∧
      [(0x00 : Byte), 0x02, 0x05, 0x01, 0x05].length + 1 = frameLength [0x00, 0x02, 0x05, 0x01, 0x05, 0x74] + 4 ∧
      crc16 [0x00, 0x02, 0x05, 0x01] = 0x0574 ∧ crc16 [0x00, 0x02, 0x05, 0x01] ≠ 0x0575) := by decide +kernel

theorem test_premises_LastFrameByteServesCommand :
    let r : Request := { link := .a, tag := 5, code := 0x01, payload := [] }
    (Instr.readStatus .a 5).wf = true ∧ requestOf (.readStatus .a 5) = some r ∧
    r.frame = 0xC5 :: ([0x00, 0x02, 0x05, 0x01, 0x05] ++ [0x74]) ∧
    ((linkAs .a { LinkState.reset with receiver := .receiving [0x00, 0x02, 0x05, 0x01, 0x05] }).lnk.links.get
      r.link).receiver = .receiving [0x00, 0x02, 0x05, 0x01, 0x05] := by decide +kernel

theorem test_premises_RequestsReadBack :
    (Instr.defineChannel .e 1 65535 255 (.configuration (-32768) 127 65535)).wf = true ∧
    requestOf (.defineChannel .e 1 65535 255 (.configuration (-32768) 127 65535))
      = some ⟨.e, 1, 0x42, [0xFF, 0xFF, 0xFF, 0x00, 0x80, 0x00, 0x7F, 0xFF, 0xFF]⟩ ∧
    commandKnown 0x42 = true ∧ commandKnown 0x01 = true ∧ commandKnown 0x12 = true := by decide +kernel

theorem test_premises_QueuesBusyFullAndSent :
    let held (n : Nat) : LinkState :=
      { LinkState.reset with queue := waiting n, inService := some { tag := 1, command := 0x21 } }
    7 ≤ ((linkAs .b (held 7)).lnk.links.get .b).queue.length ∧
    ((linkAs .b (held 6)).lnk.links.get .b).queue.length ≤ 6 ∧
    ((linkAs .b (held 6)).lnk.links.get .b).inService.isSome = true ∧
    ((linkAs .b (held 0)).lnk.links.get .b).queue = [] := by decide

theorem test_premises_LinkControllerChecks :
    (Free bench .a ∧ Free bench .b ∧ Free bench .e) ∧
    ([0x00, 0x13, 0x1F, 0x25, 0x2F, 0x3A, 0x3F, 0x50].map commandKnown = List.replicate 8 false) ∧
    (0x30 ≤ (0x30 : Byte).toNat ∧ commandKnown 0x30 = true ∧ commandKnown 0x4F = true ∧
      bench.holdsRights .b = false) ∧
    (commandKnown 0x24 = true ∧ (Link.a ≠ .e) ∧ bench.holdsRights .a = true ∧ lengthFits 0x24 2 = false) ∧
    (commandKnown 0x4F = true ∧ lengthFits 0x4F 4 = false) :=
  ⟨⟨free_of (by decide), free_of (by decide), free_of (by decide)⟩, by decide, by decide, by decide, by decide⟩

theorem test_premises_AppendIsOneAction :
    State.reset.evt.nextSequence < 4294967295 ∧ State.reset.evt.history.length < 128 ∧
    (history 128).evt.history.length = 128 ∧ (history 128).evt.nextSequence < 4294967295 ∧
    4294967295 ≤ (State.reset.withEvt { State.reset.evt with nextSequence := 4294967295 }).evt.nextSequence := by
  decide +kernel

theorem consecutive_history : HistoryConsecutive (history 130) ∧ HistoryConsecutive State.reset := by
  unfold HistoryConsecutive
  decide +kernel

/-- A read within the history, and one whose cursor 0 lies two entries behind it; counts 1, 8 and 9. -/
theorem test_premises_ReadEventsFromCursor :
    (Free State.reset .a ∧ HistoryConsecutive State.reset ∧ 1 ≤ 1 ∧ 1 ≤ 8 ∧ 8 < 9 ∧
      (State.reset.evt.links.get .a).cursor ≤ State.reset.evt.nextSequence) ∧
    Free (history 130) .a ∧ HistoryConsecutive (history 130) ∧
    ((history 130).evt.links.get .a).cursor < (history 130).evt.nextSequence - 128 :=
  ⟨⟨free_of (by decide), consecutive_history.2, by decide, by decide, by decide, by decide⟩, free_of (by decide),
    consecutive_history.1, by decide⟩

theorem test_premises_FlagCommandsActOnTheirLink :
    (1023#16).toNat < 1024 ∧ 1024 ≤ (1024#16).toNat ∧ (bench.evt.links.get .a).autoClear = false ∧
    (((after (.setMask .a 1 0 true) bench).withLnk bench.lnk).evt.links.get .a).autoClear = true ∧
    Free ((after (.setMask .a 1 0 true) bench).withLnk bench.lnk) .a :=
  ⟨by decide, by decide, by decide, by decide +kernel, free_of (by decide +kernel)⟩

/-- A store with both images readable, one with neither, and the configuration of the first. -/
theorem test_premises_ResetsLoadImages :
    let stored : Store :=
      { State.reset.nvs with
        configStore := some { contents := .unconfigured, checksum := configChecksum .unconfigured }
        exposureStore := some { contents := ⟨[], []⟩, checksum := exposureChecksum ⟨[], []⟩ } }
    readConfigImage (cutSave stored).configStore = some .unconfigured ∧
    readExposureImage (cutSave stored).exposureStore = some ⟨[], []⟩ ∧
    readConfigImage (cutSave State.reset.nvs).configStore = none ∧
    readExposureImage (cutSave State.reset.nvs).exposureStore = none ∧
    ((withSave bench (some ⟨.config .unconfigured, some .a⟩)).nvs.save = some ⟨.config .unconfigured, some .a⟩ ∧
      (withSave bench (some ⟨.exposure ⟨[], []⟩, none⟩)).nvs.save = some ⟨.exposure ⟨[], []⟩, none⟩ ∧
      bench.nvs.save = none) := by
  refine ⟨?_, ?_, rfl, rfl, rfl, rfl, rfl⟩ <;> simp [readConfigImage, readExposureImage, cutSave, State.reset]

theorem test_premises_AcceptedEditCounts :
    bench.cfg.generation < 65535 ∧
    (bench.withCfg { bench.cfg with generation := 65535 }).cfg.generation ≤ 65535 := by decide

theorem test_premises_StaleEditsRefused :
    (Instr.deleteCoil .a 1 65535 7).wf = true ∧
    requestOf (.deleteCoil .a 1 65535 7) = some ⟨.a, 1, 0x41, enc16 65535 ++ enc8 7⟩ ∧ isEditCode 0x41 = true ∧
    isEditCode 0x40 = true ∧ isEditCode 0x4F = true ∧ 65535 < 65536 ∧ 65535 ≠ bench.cfg.generation ∧ Ready bench .a :=
  ⟨by decide, by decide, by decide, by decide, by decide, by decide, by decide, ready_of (by decide)⟩

/-- One pair in its range and one that is clamped, the Sweep Period changing and the Exposure Save Period staying;
numbers 0 and 17, and number 1 given twice. -/
theorem test_premises_SetParametersAppliesClamped :
    let pairs : List ParameterPair := [⟨1, 100⟩, ⟨4, 59⟩, ⟨16, 4⟩]
    let twice : List ParameterPair := [⟨1, 5⟩, ⟨1, 6⟩]
    Ready bench .a ∧ ((∀ x ∈ pairs, 1 ≤ x.number ∧ x.number ≤ 16) ∧ (pairs.map ParameterPair.number).Nodup) ∧
    (∃ x ∈ [(⟨0, 5⟩ : ParameterPair)], x.number < 1 ∨ 16 < x.number) ∧
    (∃ x ∈ [(⟨17, 5⟩ : ParameterPair)], x.number < 1 ∨ 16 < x.number) ∧
    ¬(twice.map ParameterPair.number).Nodup :=
  ⟨ready_of (by decide), by decide, by decide, by decide, by decide⟩

theorem test_premises_RightsAutoStartAndClocks :
    bench.tmb.uptime < 4294967295 ∧ bench.tmb.heaterClock < 4294967295 ∧
    (bench.withTmb { bench.tmb with uptime := 4294967295, heaterClock := 4294967295 }).tmb.uptime = 4294967295 ∧
    Ready bench .a := ⟨by decide, by decide, by decide, ready_of (by decide)⟩

/-- A save in flight on link A of the bench, with another waiting or not. -/
def saving (x : Save) (waits : Bool) : State :=
  holding .a 0x37 (bench.withNvs { bench.nvs with save := some x, waiting := waits })

theorem test_premises_SavesCaptureAndHold :
    (Ready bench .e ∧ TablesCanonical bench ∧ bench.nvs.save = none ∧ bench.tmb.exposureSaveCounter.isSome = true) ∧
    ((bench.channel 5).state = .retired ∧ (bench.channel 5).config.isSome = true ∧ (bench.channel 95).config = none) ∧
    Ready (saving ⟨.exposure ⟨[], []⟩, none⟩ false) .e ∧
    (saving ⟨.exposure ⟨[], []⟩, none⟩ false).nvs.save.isSome = true ∧
    (saving ⟨.exposure ⟨[], []⟩, none⟩ false).tmb.exposureSaveCounter.isSome = true :=
  ⟨⟨ready_of (by decide), test_premises_canonical.1, by decide, by decide⟩, by decide, ready_of (by decide),
    by decide, by decide⟩

/-- Both images, requested and scheduled, with an exposure save waiting and not. -/
theorem test_premises_SaveEndSettlesImage :
    let requested : Save := { capture := .config (captureConfig bench), requester := some .a }
    let scheduled : Save := { capture := .exposure (captureExposure bench), requester := none }
    (saving requested true).nvs.save = some requested ∧ (saving requested true).nvs.waiting = true ∧
    ((saving requested true).lnk.links.get .a).inService = some { tag := 9, command := 0x37 } ∧
    (saving scheduled false).nvs.save = some scheduled ∧ (saving scheduled false).nvs.waiting = false := by decide

/-- The bench with a Poll request to slot 0 outstanding. -/
def polling (reread : Bool) : State := bench.withAcq { bench.acq with poll := some { slot := 0, reread := reread } }

theorem test_premises_SampleExpiryAgesAndPolls :
    bench.acq.poll = none ∧ slotEnabled bench 0 = true ∧ slotEnabled bench 1 = false ∧
    (polling false).acq.poll.isSome = true := by decide

/-- A well-formed reply, one with a fault, and frames that are bad: short, for another slot, or broken. -/
theorem test_premises_PollRepliesEndPolls :
    (polling false).acq.poll = some { slot := 0, reread := false } ∧
    (polling true).acq.poll = some { slot := 0, reread := true } ∧
    (wellFormedReply 0 [0, 38, 148, 0, 0, 0, 0, 0, 0, 0, 0, 0, 0, 0, 0, 0, 0, 0, 0, 106]).map ModuleReply.fault = some false ∧
    (wellFormedReply 0 [0, 38, 148, 0, 0, 0, 0, 0, 0, 0, 0, 0, 0, 0, 0, 0, 0, 0, 1, 109]).map ModuleReply.fault = some true ∧
    wellFormedReply 1 [0, 38, 148, 0, 0, 0, 0, 0, 0, 0, 0, 0, 0, 0, 0, 0, 0, 0, 0, 106] = none ∧
    wellFormedReply 0 [0, 38, 148, 0, 0, 0, 0, 0, 0, 0, 0, 0, 0, 0, 0, 0, 0, 0, 0, 107] = none ∧
    wellFormedReply 0 [] = none := by decide +kernel

/-- Raw readings at both ends of the raw range and outside, and corrected values at both ends of the map range. -/
theorem test_premises_CorrectedValuesRound :
    let cfg : ChannelConfig := { offset := 0, trim := 0, maxStep := 1 }
    (-2001 : Int) < -2000 ∧ (16000 : Int) < 16001 ∧ correctedRaw cfg (-500) = -500 ∧ correctedRaw cfg 12500 = 12500 ∧
    correctedRaw cfg (-2000) < -500 ∧ 12500 < correctedRaw cfg 16000 := by decide +kernel

/-- Each state with what its clause asks of it; a step of exactly Max Step and one above; Confirm Count 1 and 2. -/
theorem test_premises_ChannelsFollowHealthRules :
    let healthy := bench.channel 0
    let suspect := bench.channel 3
    (bench.channel 4).state = .acquiring ∧ (bench.channel 1).state = .failed ∧ (bench.channel 5).state = .retired ∧
    (healthy.state = .healthy ∧ healthy.lastGood = some ⟨9881, 0, 0⟩ ∧ ((9981 : Int) - 9881).natAbs ≤ 100 ∧
      100 < ((9982 : Int) - 9881).natAbs) ∧
    (suspect.state = .suspect ∧ suspect.lastGood = some ⟨9130, 0, 0⟩ ∧ suspect.candidate = some ⟨9460, 1, 0⟩ ∧
      100 < ((9560 : Int) - 9130).natAbs ∧ ((9560 : Int) - 9460).natAbs ≤ 100 ∧ 100 < ((9561 : Int) - 9460).natAbs) ∧
    raise 15 1 < Parameters.default.confirmCount ∧ Parameters.default.confirmCount ≤ raise 15 2 ∧
    2 ≤ Parameters.default.confirmCount ∧
    ({ Parameters.default with confirmCount := 1 } : Parameters).confirmCount = 1 := by decide +kernel

theorem test_premises_ChannelEditsApply :
    Ready bench .a ∧ 96 ≤ 96 ∧ (95 < 96 ∧ (bench.channel 95).state = .unused) ∧
    ((bench.channel 2).state ≠ .unused ∧ ∃ x ∈ bench.cfg.primaries, x.2 = 2) ∧
    ((bench.channel 4).state ≠ .unused ∧ (∀ x ∈ bench.cfg.primaries, x.2 ≠ 4) ∧
      ∀ x ∈ bench.cfg.alternates, x.2.channel ≠ 4) ∧
    (bench.channel 4).state = .acquiring ∧ (bench.channel 1).state = .failed ∧ (bench.channel 5).state = .retired :=
  ⟨ready_of (by decide), by decide, by decide, by decide, by decide, by decide, by decide, by decide⟩

theorem test_premises_InterleaveVisitsEverySight :
    interleaveValid bench.scn.sightCount bench.scn.interleave = true ∧ 9 < bench.scn.sightCount ∧
    interleaveValid 1 1 = true := by decide

/-- A sweep of the bench with a pending request or none. -/
def slotted (k : Option SweepKind) : State :=
  (sweeping .full 0 1 0 bench).withScn { (sweeping .full 0 1 0 bench).scn with pendingSlot := k }

/-- `s` with its sweep counter running. -/
def sweepTimed (s : State) : State := s.withTmb { s.tmb with sweepCounter := some 60 }

theorem test_premises_SweepRequestsByTable :
    (Free bench .b ∧ Free State.reset .b ∧ Free (slotted none) .b) ∧ 7 < 8 ∧ State.reset.scn.sightCount = 0 ∧
    (0 < bench.scn.sightCount ∧ bench.coil 7 = none ∧ (bench.coil 0).isSome = true ∧ (bench.coil 3).isSome = true) ∧
    (bench.scn.sweep = none ∧ (slotted none).scn.sweep.isSome = true ∧ (slotted none).scn.pendingSlot = none) ∧
    ((slotted (some .full)).scn.pendingSlot = some .full ∧ (slotted (some (.coil 3))).scn.pendingSlot = some (.coil 3) ∧
      0 ≠ 3) ∧
    bench.tmb.sweepCounter = none ∧ (sweepTimed State.reset).tmb.sweepCounter.isSome = true ∧
    (sweepTimed bench).scn.sweep = none ∧ (sweepTimed (slotted none)).scn.pendingSlot ≠ some .full ∧
    (sweepTimed (slotted (some .full))).scn.pendingSlot = some .full :=
  ⟨⟨free_of (by decide), free_of (by decide), free_of (by decide)⟩, by decide, by decide, by decide, by decide,
    by decide, by decide, by decide, by decide, by decide, by decide⟩

/-- A Full sweep goes to step 9 and is spent after it; a Coil 0 sweep views steps 0 and 1 alone, and a Coil 3 sweep
none; with a request pending and without. -/
theorem test_premises_SweepsAdvanceAndEnd :
    let viewed (k n : Nat) : Prop :=
      ∃ cell, Table.find bench.scn.sights ((n * bench.scn.interleave) % bench.scn.sightCount) = some cell ∧
        bench.coilOfCell cell = some k
    (viewed 0 0 ∧ viewed 0 1) ∧ (∀ n, 2 ≤ n → n < 10 → ¬viewed 0 n) ∧ (∀ n, n < 10 → ¬viewed 3 n) ∧
    bench.scn.sightCount = 10 ∧ (slotted none).scn.pendingSlot = none ∧
    (slotted (some (.coil 3))).scn.pendingSlot = some (.coil 3) ∧
    (SweepOutcome.complete ≠ .cancelled ∧ SweepOutcome.part ≠ .cancelled ∧ SweepOutcome.faulted ≠ .cancelled) := by
  refine ⟨⟨⟨0, by decide, by decide⟩, ⟨4, by decide, by decide⟩⟩, ?_, ?_, by decide, by decide, by decide, by decide⟩
  · rintro n h1 h2 ⟨cell, h, -⟩
    interval_cases n <;> simp [bench, State.reset, Table.find] at h
  · rintro n h2 ⟨cell, h, h'⟩
    interval_cases n <;> simp [bench, State.reset, Table.find] at h <;> subst h <;> revert h' <;> decide

/-- Step 2 views sight 6, which names no cell; steps 0 and 1 sights 0 and 3, whose cells have a usable primary and
none; Signal 39 and 40; differences of 300 and 301. -/
theorem test_premises_ReadingsTaken :
    let x (n : Nat) : Sweep := { Sweep.fresh .full with nextStep := n, attempt := 1 }
    (sweeping .full 2 1 0 bench).scn.sweep = some (x 2) ∧ 6 = (2 * bench.scn.interleave) % bench.scn.sightCount ∧
    Table.find bench.scn.sights 6 = none ∧ Table.find bench.scn.sights 0 = some 0 ∧
    Table.find bench.scn.sights 3 = some 4 ∧ 3 = (1 * bench.scn.interleave) % bench.scn.sightCount ∧
    39 < bench.cfg.parameters.minSignal ∧ bench.cfg.parameters.minSignal ≤ 40 ∧
    primaryValue (sweeping .full 1 1 0 bench) 4 = none ∧ primaryValue (sweeping .full 0 1 0 bench) 0 = some 9881 ∧
    (sweeping .full 0 1 0 bench).coilOfCell 0 = some 0 ∧
    ((9881 : Int) - 9581).natAbs ≤ bench.cfg.parameters.disagreeLimit ∧
    bench.cfg.parameters.disagreeLimit < ((9881 : Int) - 9580).natAbs := by decide +kernel

/-- An attempt that is sent again, one that is Missed, and the fourth Missed in a row. -/
theorem test_premises_FailedAttemptsRetryOrMiss :
    bench.scn.sweep = none ∧ (sweeping .full 0 1 0 bench).scn.sweep.isSome = true ∧
    1 ≤ bench.cfg.parameters.scanRetries ∧ ¬2 ≤ bench.cfg.parameters.scanRetries ∧ 2 < 3 ∧ ¬3 < 3 ∧
    1 ≠ (0 * bench.scn.interleave) % bench.scn.sightCount := by decide

/-- Biases at both bounds and inside; a difference inside and at the edge of the standstill band. -/
theorem test_premises_BiasMovesTowardDifference :
    (-1000 : Int) ≤ -1000 ∧ (1000 : Int) ≤ 1000 ∧ (150 : Int) ≤ 230 ∧ (143 : Int) ≤ 150 ∧
    ((157 : Int) - 150).natAbs < 2 ^ 3 ∧ 2 ^ 3 ≤ ((158 : Int) - 150).natAbs ∧ (-1000 : Int) < 150 := by decide

/-- A sweep and none; factors that are valid and not; a list of two entries that ends at the last sight and one that
runs past it; a count of 512 and 513; entries that name a cell in use, one not in use, and no cell number at all; a
count for which the factor is not valid. -/
theorem test_premises_SightEditsAndCancel :
    let factor := bench.scn.interleave
    let valid (count factor : Nat) : Prop := 1 ≤ factor ∧ factor ≤ max 1 (count - 1) ∧ Nat.gcd factor count = 1
    (Ready bench .a ∧ bench.scn.sweep = none) ∧
    (Ready (sweeping .full 0 1 0 bench) .a ∧ (sweeping .full 0 1 0 bench).scn.sweep.isSome = true) ∧
    (valid bench.scn.sightCount 9 ∧ ¬valid bench.scn.sightCount 2 ∧ ¬valid bench.scn.sightCount 0) ∧
    (TablesCanonical bench ∧ TablesCanonical (sweeping .full 0 1 0 bench)) ∧ 512 < 513 ∧
    (512 ≤ 512 ∧ 510 + [some 9, none].length ≤ 512 ∧
      ¬([some 9, none] = [] ∨ 511 + [some 9, none].length ≤ 512)) ∧
    (∀ cell, some cell ∈ [some 9, none] → cell ≤ 2047 ∧ bench.inUse cell = true) ∧
    ((∀ cell, some cell ∈ [some 2047] → cell ≤ 2047) ∧ ¬∀ cell, some cell ∈ [some 2047] → bench.inUse cell = true) ∧
    (¬∀ cell, some cell ∈ [some 2048] → cell ≤ 2047) ∧ (valid 512 factor ∧ ¬valid 510 factor ∧ ¬valid 0 factor) := by
  refine ⟨⟨ready_of (by decide), by decide⟩, ⟨ready_of (by decide), by decide⟩, by decide,
    ⟨test_premises_canonical.1, test_premises_canonical.2.2.2⟩, by decide, by decide, ?_, ⟨?_, ?_⟩, ?_, by decide⟩
  · intro cell h
    simp at h
    subst h
    decide
  · simp
  · exact fun h => absurd (h 2047 (by simp)) (by decide)
  · exact fun h => absurd (h 2048 (by simp)) (by decide)

theorem test_premises_MappingStartsAndStops :
    (Ready bench .a ∧ bench.map.mapState = .stopped ∧ bench.cfg.coils ≠ []) ∧
    (Ready State.reset .e ∧ State.reset.cfg.coils = []) ∧
    (Ready (mapping bench) .a ∧ (mapping bench).map.mapState ≠ .stopped ∧ (mapping bench).map.pass = none) ∧
    (Ready (passAt .walking 0 0 (mapping bench)) .a ∧ (passAt .walking 0 0 (mapping bench)).map.pass.isSome = true) :=
  ⟨⟨ready_of (by decide), by decide, by decide⟩, ⟨ready_of (by decide), by decide⟩,
    ⟨ready_of (by decide), by decide, by decide⟩, ready_of (by decide), by decide⟩

theorem test_premises_StopTakesWholeEffect :
    TablesCanonical (mapping bench) ∧ (mapping bench).scn.sweep = none ∧
    TablesCanonical (sweeping (.coil 3) 0 1 0 (passAt .walking 3 1 (mapping bench))) ∧
    (sweeping (.coil 3) 0 1 0 (passAt .walking 3 1 (mapping bench))).scn.sweep.isSome = true ∧
    (sweeping (.coil 3) 0 1 0 (passAt .walking 3 1 (mapping bench))).map.pass.isSome = true :=
  ⟨canonical_of_inOrder (by decide), by decide, canonical_of_inOrder (by decide), by decide, by decide⟩

/-- `s` with a stop pending. -/
def stopping (s : State) : State := s.withMap { s.map with stopPending := some .a }

theorem test_premises_PassExpiriesAndHandOffs :
    let walking := passAt .walking 0 1 (mapping bench)
    let handing := passAt .handingOff 3 1 (mapping bench)
    bench.tmb.passCounter = none ∧
    ((mapping bench).tmb.passCounter.isSome = true ∧ (mapping bench).map.pass = none ∧
      (mapping bench).cfg.coils = (0, ⟨2, 3, 9600, 100⟩) :: [(3, ⟨2, 2, 9600, 100⟩)]) ∧
    (walking.tmb.passCounter.isSome = true ∧ walking.map.pass.isSome = true ∧ walking.map.stopPending = none) ∧
    (stopping walking).map.stopPending.isSome = true ∧ walking.map.pass.map Pass.phase = some .walking ∧
    handing.map.pass.map Pass.phase = some .handingOff ∧ handing.map.stopPending = none ∧
    (stopping handing).map.stopPending = some .a := by decide

/-- The places of the bench without alternates, cell 3 scanned at stamp 0, cell 8 Measured in an earlier pass and
cell 9 Held at age 255, at uptime `now`. -/
def tubeBench (now : Nat) : State :=
  { mapping bench with
    cfg := { bench.cfg with alternates := [] }
    tmb := { (mapping bench).tmb with uptime := now }
    scn := { bench.scn with scans := [(3, { sight := 3, temperature := 9100, signal := 80, stamp := 0 })] }
    map :=
      { (mapping bench).map with
        cells := [(8, freshRecord 6 9050 .measured (some 7)),
          (9, { value := some 9060, quality := .stale, source := none, passStamp := 1, heldAge := 255 })] } }

/-- The direct source of each cell: cell 0's primary, whose age is at most 2; cell 1's alternate; cell 3's scan record
at its age limit, and one second past it none; and none for the cells of coil 3. Without its alternate cell 1 is
filled from cells 0 and 2; cell 6 has an eligible neighbour and cell 7 a Held one; cell 9 holds a value and cell 4
none. -/
theorem test_premises_TubeStepWritesTube_sources :
    let s := tubeBench bench.cfg.parameters.scanAgeLimit
    let later := tubeBench (bench.cfg.parameters.scanAgeLimit + 1)
    let anchors (s : State) (k t : Nat) (d : Dims) := tubeAnchors s k d t
    let gap := bench.cfg.parameters.maxGap
    ((bench.channel 0).state = .healthy ∧ (bench.channel 0).lastGood = some ⟨9881, 0, 0⟩) ∧
    ((anchorAt (anchors bench 0 0 ⟨2, 3⟩) 0).map Direct.quality = some .measured ∧
      (anchorAt (anchors bench 0 0 ⟨2, 3⟩) 1).map Direct.quality = some .substituted) ∧
    (anchorAt (anchors s 0 1 ⟨2, 3⟩) 0 = some { value := 9100, quality := .scanned, source := 3 } ∧
      anchorAt (anchors later 0 1 ⟨2, 3⟩) 0 = none) ∧
    (anchorAt (anchors s 0 0 ⟨2, 3⟩) 1 = none ∧
      (filled gap (anchors s 0 0 ⟨2, 3⟩) 1).map Prod.snd = some .interpolated ∧
      (filled gap (anchors s 0 1 ⟨2, 3⟩) 1).map Prod.snd = some .extended) ∧
    (filled gap (anchors s 3 0 ⟨2, 2⟩) 0 = none ∧ neighbourFill s 3 ⟨2, 2⟩ 0 0 = some 9050 ∧
      neighbourFill s 3 ⟨2, 2⟩ 0 1 = none ∧ (s.cell 7).value = none) ∧
    (filled gap (anchors s 3 1 ⟨2, 2⟩) 1 = none ∧ neighbourFill s 3 ⟨2, 2⟩ 1 1 = none ∧
      (s.cell 9).value = some 9060 ∧ (s.cell 9).heldAge = 255) := by
  decide +kernel

/-- A pass walking at tube 0 of coil 0; elevation 2 is its last, cell 2, and cell 3 lies outside it; the value of cell
1 rises above its peak, and with an older peak of 9300 it does not. -/
theorem test_premises_TubeStepWritesTube :
    let s := passAt .walking 0 0 (mapping bench)
    (TablesCanonical s ∧ (s.map.pass.map fun p => (p.phase, p.generation, p.coil, p.tube)) = some (.walking, 0, 0, 0) ∧
      s.map.stopPending = none ∧ s.cfg.generation = 0 ∧ s.coil 0 = some ⟨2, 3, 9600, 100⟩) ∧
    (2 < 3 ∧ baseCell s.geometry 0 + 0 * 3 + 2 = 2 ∧ ∀ e, e < 3 → 3 ≠ baseCell s.geometry 0 + 0 * 3 + e) ∧
    (let c := evaluateCell s 7 0 ⟨2, 3⟩ 0 (tubeAnchors s 0 ⟨2, 3⟩ 0) 1;
      c.value = some 9300 ∧ c.quality.atLeast 2 = true ∧ s.peak 1 = none) ∧
    (s.withMap { s.map with peaks := [(1, ⟨9300, 0, 6⟩)] }).peak 1 = some ⟨9300, 0, 6⟩ := by
  refine ⟨⟨canonical_of_inOrder (by decide), by decide, by decide, by decide, by decide⟩, ⟨by decide, by decide, ?_⟩,
    by decide +kernel, by decide⟩
  intro e he
  have : baseCell (passAt .walking 0 0 (mapping bench)).geometry 0 = 0 := by decide
  omega

/-- A tube with more of its coil to come, the last of coil 0 with coil 3 after it, and the last of all; a stop
pending; a generation that has moved; an establish count at the bound and below it. -/
theorem test_premises_TubeStepMovesOrEndsPass :
    let s (k t : Nat) := passAt .walking k t (mapping bench)
    let moved := (s 0 0).withCfg { (s 0 0).cfg with generation := 1 }
    ((s 0 0).map.pass.map Pass.phase = some .walking ∧ (stopping (s 0 0)).map.stopPending = some .a) ∧
    (moved.map.stopPending = none ∧ moved.map.pass.map Pass.generation ≠ some moved.cfg.generation) ∧
    ((s 0 0).coil 0 = some ⟨2, 3, 9600, 100⟩ ∧ 0 + 1 < 2) ∧ (2 ≤ 1 + 1 ∧ coilAfter (s 0 1).geometry 0 = some 3) ∧
    ((s 3 1).coil 3 = some ⟨2, 2, 9600, 100⟩ ∧ coilAfter (s 3 1).geometry 3 = none) ∧
    (s 3 1).map.mapState ≠ .establishing ∧
    ((s 3 1).withMap { (s 3 1).map with mapState := .establishing }).map.mapState = .establishing ∧
    bench.cfg.parameters.establishPasses ≤ raise max8 1 ∧ 0 < bench.cfg.parameters.establishPasses := by
  decide +kernel

/-- Anchors with two elevations between them, at a Max Gap of 2 and of 1; an elevation two past the last anchor and
two before the first, at both; a tube without anchors; the four eligible qualities and one that is not; the first and
the last tube of a coil; halves that round up and down. -/
theorem test_premises_FillStaysBetweenAnchors :
    let d (v : Int) : Option Direct := some { value := v, quality := .measured, source := 0 }
    let both := [d 9120, none, none, d 9575]
    let first := [d 9120, none, none]
    let last := [none, none, d 9575]
    (anchorBelow both 2 = some (0, 9120) ∧ anchorAbove both 1 = some (3, 9575) ∧ 0 < 1 ∧ 2 < 3) ∧
    (3 - 0 - 1 ≤ 2 ∧ 1 < 3 - 0 - 1 ∧ (filled 2 both 1).map Prod.snd = some .interpolated ∧ filled 1 both 1 = none) ∧
    (wideGaps 2 both = 0 ∧ wideGaps 1 both = 1) ∧
    (anchorBelow first 2 = some (0, 9120) ∧ anchorAbove first 2 = none ∧ filled 2 first 2 = some (9120, .extended) ∧
      filled 1 first 2 = none) ∧
    (anchorBelow last 0 = none ∧ anchorAbove last 0 = some (2, 9575) ∧ filled 2 last 0 = some (9575, .extended) ∧
      filled 1 last 0 = none) ∧
    filled 7 [none, none] 0 = none ∧
    ([Quality.measured, .substituted, .scanned, .interpolated, .extended].map fun q =>
      (eligibleValue (freshRecord 7 9000 q none)).isSome) = [true, true, true, true, false] ∧
    (0 < 1 ∧ ¬0 + 1 < 1 ∧ 0 + 1 < 2) ∧
    (neighbourValue (some 8891) (some 8950) = some 8921 ∧ neighbourValue (some (-1)) (some 0) = some (-1)) := by
  decide +kernel

/-- Values at the design temperature and one tenth above, and both ends of a step. -/
theorem test_premises_MultiplierDoublesEachStep :
    0 < 50 ∧ (9600 : Int) ≤ (9600 : Nat) ∧ ((9600 : Nat) : Int) < 9601 ∧
    (((0 : Nat) : Int) * (100 : Nat) ≤ 9601 - (9600 : Nat) ∧ (9601 : Int) - (9600 : Nat) < (((0 : Nat) : Int) + 1) * (100 : Nat)) ∧
    (((15 : Nat) : Int) * (100 : Nat) ≤ 11100 - (9600 : Nat) ∧
      (11100 : Int) - (9600 : Nat) < (((15 : Nat) : Int) + 1) * (100 : Nat)) := by decide

theorem test_premises_ClearsEmptyTheirCoil :
    (Free bench .b ∧ bench.holdsRights .b = false) ∧ (Free bench .a ∧ bench.holdsRights .a = true) ∧ 7 < 8 ∧
    (7 ≤ 7 ∧ bench.coil 7 = none) ∧
    (TablesCanonical bench ∧ 3 ≤ 7 ∧ bench.coil 3 = some ⟨2, 2, 9600, 100⟩ ∧ baseCell bench.geometry 3 = 6) :=
  ⟨⟨free_of (by decide), by decide⟩, ⟨free_of (by decide), by decide⟩, by decide, by decide,
    test_premises_canonical.1, by decide, by decide, by decide⟩

theorem test_premises_CellsNumberPlaces :
    Table.rising worked = true ∧ 991 < cellTotal worked ∧ cellTotal worked ≤ 992 ∧
    (Table.find worked 5 = some ⟨64, 4⟩ ∧ 63 < 64 ∧ 3 < 4) := by decide +kernel

/-- Coils 7 and 8; sizes at their ends; a total of exactly 2048 and one above; a freeze in flight and a sweep; edits
that keep cells 0 to 5 and move the others; a zone that stays and one that is lost. -/
theorem test_premises_CoilEditsKeepCells :
    let frozen := freezing false (some (0, 0)) bench
    let swept := sweeping .full 0 1 0 bench
    (Ready bench .a ∧ bench.map.mapState = .stopped ∧ 7 ≤ 7 ∧ 7 < 8 ∧ bench.frz.freeze = none ∧
      bench.scn.sweep = none) ∧
    ((mapping bench).map.mapState ≠ .stopped ∧ Ready (mapping bench) .a) ∧
    (Ready frozen .a ∧ frozen.map.mapState = .stopped ∧ frozen.frz.freeze.isSome = true ∧
      (frozen.coil 3).isSome = true) ∧
    (Ready swept .a ∧ swept.map.mapState = .stopped ∧ swept.frz.freeze = none ∧ swept.scn.sweep.isSome = true ∧
      (swept.coil 3).isSome = true) ∧
    (cellTotal (geometryOf [(0, ⟨64, 8, 5000, 50⟩), (1, ⟨64, 8, 5000, 50⟩), (2, ⟨64, 8, 5000, 50⟩),
        (7, ⟨64, 8, 5000, 50⟩)]) = 2048) ∧
    (2048 < cellTotal (geometryOf (Table.insert [(0, ⟨64, 8, 5000, 50⟩), (1, ⟨64, 8, 5000, 50⟩),
        (2, ⟨64, 8, 5000, 50⟩), (3, ⟨64, 8, 5000, 50⟩)] 7 ⟨1, 1, 5000, 50⟩))) ∧
    (bench.coil 7 = none ∧ (bench.coil 3).isSome = true) ∧ TablesCanonical bench ∧
    (cellKept bench.geometry (applyCoilEdit 1 (some ⟨2, 2, 9600, 100⟩) bench).geometry 5 = true ∧
      cellKept bench.geometry (applyCoilEdit 1 (some ⟨2, 2, 9600, 100⟩) bench).geometry 6 = false) ∧
    (((applyCoilEdit 3 none bench).zone 4).isSome = true ∧ (applyCoilEdit 0 none bench).zone 4 = none) ∧
    (let reading := after (.readExposure .b 7 1 32) bench;
      Ready reading .a ∧ reading.map.mapState = .stopped ∧ reading.map.reads.get .a = none ∧
        (reading.map.reads.get .b).map (fun x => x.left.flatten) = some [3, 4, 5, 6, 7, 8, 9] ∧
        (reading.lnk.links.get .b).inService = some { tag := 7, command := 0x0F }) :=
  ⟨⟨ready_of (by decide), by decide, by decide, by decide, by decide, by decide⟩, ⟨by decide, ready_of (by decide)⟩,
    ⟨ready_of (by decide), by decide, by decide, by decide⟩,
    ⟨ready_of (by decide), by decide, by decide, by decide, by decide⟩,
    by decide +kernel, by decide +kernel, by decide, test_premises_canonical.1, by decide +kernel,
    by decide +kernel, ready_of (by decide +kernel), by decide +kernel⟩

/-- Cell 1 has a failed primary and an alternate; for a new alternate, channel 2 is taken, channel 0 is free and the
primary of cell 0 on the tube, and channel 4 is the primary of no cell. Cells 2047 and 2048, of which neither is in
use; channels 95, which is Unused, and 96; cell 3 has no primary and cell 0 no alternate. -/
theorem test_premises_AnchorEditsByDependence :
    (TablesCanonical bench ∧ Table.rising bench.cfg.alternates = true ∧ Ready bench .a ∧ bench.inUse 9 = true ∧
      bench.inUse 1 = true ∧ 1 ≤ 2047) ∧
    (2047 < 2048 ∧ 2047 ≤ 2047 ∧ bench.inUse 2047 = false ∧ bench.inUse 10 = false ∧ 95 < 96) ∧
    (95 ≤ 95 ∧ (bench.channel 4).state ≠ .unused) ∧ (Table.find bench.cfg.primaries 1 = some 1) ∧
    (bench.inUse 3 = true ∧ Table.find bench.cfg.primaries 3 = none) ∧
    (bench.inUse 0 = true ∧ Table.find bench.cfg.alternates 0 = none) ∧
    ((bench.channel 0).state ≠ .failed ∧ (bench.channel 0).state ≠ .retired ∧ (bench.channel 1).state = .failed) ∧
    ((bench.channel 95).state = .unused ∧ (∃ x ∈ bench.cfg.alternates, x.2.channel = 2) ∧
      (∀ x ∈ bench.cfg.alternates, x.2.channel ≠ 0) ∧ (0, 0) ∈ bench.cfg.primaries ∧
      (∀ x ∈ bench.cfg.primaries, x.2 ≠ 4)) ∧
    (placeOf bench.geometry 1 = some ⟨0, 0, 1⟩ ∧ placeOf bench.geometry 0 = some ⟨0, 0, 0⟩) ∧
    Table.find bench.cfg.alternates 1 = some { channel := 2, offset := 40 } :=
  ⟨⟨test_premises_canonical.1, by decide, ready_of (by decide), by decide, by decide, by decide⟩, by decide,
    by decide, by decide, by decide, by decide, by decide, by decide, by decide, by decide⟩

/-- Occurrence 65535; each state of each mode; sets that hold nothing, nothing new, and something new; a repeat count
below the interval and at it. -/
theorem test_premises_AlarmTablesFollowed :
    (zoneIn .latching .both).mode = .latching ∧ (zoneIn .repeating .either).mode = .repeating ∧ 65535 ≤ 65535 ∧
    (recordIn .activeUnacked .empty 0).state = .activeUnacked ∧ (recordIn .activeAcked .empty 1).state = .activeAcked ∧
    (recordIn .clearedUnacked .empty 0).state = .clearedUnacked ∧ (recordIn .active .empty 0).state = .active ∧
    AlarmRecord.reset.state = .normal ∧ (1 : CondSet) ≠ 0 ∧
    (1 : CondSet) &&& ~~~(recordIn .activeAcked .empty 1).acknowledged = 0 ∧
    (3 : CondSet) &&& ~~~(recordIn .activeAcked .empty 1).acknowledged ≠ 0 ∧
    1 + 1 < (zoneIn .repeating .either).repeatInterval ∧ (zoneIn .repeating .either).repeatInterval ≤ 2 + 1 := by decide

/-- A window of 7 entries with W = 7, 6 and 1, and W = 8 above it; a base without a maximum, and equal uptimes. -/
theorem test_premises_ZoneConditionsJudged :
    workedWindow.length < 8 ∧
    (workedWindow = [] ++ ⟨2200, some 9815, 41995⟩ :: workedWindow.drop 1 ∧ (workedWindow.drop 1).length + 1 = 7) ∧
    (workedWindow = workedWindow.take 1 ++ ⟨2201, some 9821, 42000⟩ :: workedWindow.drop 2 ∧
      (workedWindow.drop 2).length + 1 = 6 ∧ 42000 < 42030) ∧
    (workedWindow = workedWindow.take 6 ++ ⟨2206, some 9871, 42025⟩ :: [] ∧ 42025 ≤ 42025) ∧
    ([⟨1, none, 5⟩] : List RateEntry) = [] ++ ⟨1, none, 5⟩ :: [] := by decide +kernel

/-- Zone 4 is Defined and zone 5 is not; its window is short, and one of 16 is full. -/
theorem test_premises_EvaluationJudgesEveryZone :
    TablesCanonical (mapping bench) ∧ (mapping bench).zone 4 = some (zoneIn .latching .both) ∧
    (mapping bench).zone 5 = none ∧ ((mapping bench).window 4).length < 16 ∧
    ¬(List.replicate 16 (⟨1, none, 5⟩ : RateEntry)).length < 16 :=
  ⟨canonical_of_inOrder (by decide), by decide, by decide, by decide, by decide⟩

/-- Cell 0 of the bench at the Watch Threshold is a candidate. -/
theorem test_premises_HotListHoldsHottest :
    let s := bench.withMap { bench.map with cells := [(0, freshRecord 7 9000 .measured (some 0))] }
    TablesCanonical s ∧ s.inUse 0 = true ∧ (s.cell 0).value = some 9000 ∧ (s.cell 0).quality.atLeast 2 = true ∧
    s.cfg.parameters.watchThreshold ≤ 9000 :=
  ⟨canonical_of_inOrder (by decide), by decide, by decide, by decide, by decide⟩

theorem test_premises_AcknowledgeByRecord :
    let s (r : AlarmRecord) := alarmed r (mapping bench)
    (Free (s (recordIn .activeUnacked ⟨true, false⟩ 0)) .b ∧ Link.b ≠ .e) ∧ (31 < 32 ∧ 31 ≤ 31 ∧ bench.zone 31 = none) ∧
    (4 ≤ 31 ∧ bench.zone 4 = some (zoneIn .latching .both) ∧ (zoneIn .latching .both).mode = .latching) ∧
    (zoneIn .repeating .either).mode = .repeating ∧ (bench.alarm 4).state = .normal ∧
    ((s (recordIn .activeUnacked ⟨true, false⟩ 0)).alarm 4).state = .activeUnacked ∧
    (36 ≠ ((s (recordIn .activeUnacked ⟨true, false⟩ 0)).alarm 4).occurrence ∧
      37 = ((s (recordIn .activeUnacked ⟨true, false⟩ 0)).alarm 4).occurrence) ∧
    TablesCanonical (s (recordIn .activeUnacked ⟨true, false⟩ 0)) ∧
    ((s (recordIn .clearedUnacked ⟨true, false⟩ 0)).alarm 4).state = .clearedUnacked ∧
    ((s (recordIn .activeAcked ⟨true, true⟩ 1)).alarm 4).state = .activeAcked ∧
    ((s (recordIn .activeUnacked .empty 0)).alarm 4).acks = .empty :=
  ⟨⟨free_of (by decide), by decide⟩, by decide, by decide, by decide, by decide, by decide, by decide,
    canonical_of_inOrder (by decide), by decide, by decide, by decide⟩

/-- Zones 31 and 32, coils 7 and 8; ranges that end at the coil's last tube and elevation and one past them; named
values 1 and 2. -/
theorem test_premises_ZoneEditsApply :
    (TablesCanonical bench ∧ Ready bench .a) ∧ 31 < 32 ∧
    (31 ≤ 31 ∧ bench.zone 31 = none ∧ 7 < ({ zoneArgs with coil := 8 }).coil) ∧
    (4 ≤ 31 ∧ (bench.zone 4).isSome = true) ∧ (zoneArgs.coil ≤ 7 ∧ bench.coil 7 = none) ∧
    (bench.coil zoneArgs.coil = some ⟨2, 3, 9600, 100⟩ ∧ zoneArgs.lowTube ≤ zoneArgs.highTube ∧ zoneArgs.highTube < 2 ∧
      zoneArgs.lowElevation ≤ zoneArgs.highElevation ∧ zoneArgs.highElevation < 3 ∧ zoneArgs.mode ≤ 1 ∧
      zoneArgs.ackPolicy ≤ 1) ∧
    ¬({ zoneArgs with highTube := 2 }).highTube < 2 ∧ 1 < ({ zoneArgs with mode := 2 }).mode :=
  ⟨⟨test_premises_canonical.1, ready_of (by decide)⟩, by decide, by decide, by decide, by decide, by decide,
    by decide, by decide⟩

theorem test_premises_FreezesCopyAndComplete :
    (Free bench .a ∧ bench.holdsRights .a = true ∧ bench.frz.freeze = none ∧
      bench.cfg.coils = (0, ⟨2, 3, 9600, 100⟩) :: [(3, ⟨2, 2, 9600, 100⟩)]) ∧
    (Free State.reset .b ∧ State.reset.frz.freeze = none ∧ State.reset.cfg.coils = []) ∧
    (let s := freezing false (some (3, 1)) bench;
      Free s .b ∧ TablesCanonical s ∧ s.frz.freeze.map Freeze.next = some (some (3, 1)) ∧
        s.coil 3 = some ⟨2, 2, 9600, 100⟩ ∧ ¬1 + 1 < 2 ∧ baseCell s.geometry 3 + 1 * 2 + 1 = 9) ∧
    ((freezing true (some (0, 0)) bench).frz.freeze.map Freeze.clearing = some true ∧ 0 + 1 < 2) ∧
    (freezing false none bench).frz.freeze.map Freeze.next = some none :=
  ⟨⟨free_of (by decide), by decide, by decide, by decide⟩, ⟨free_of (by decide), by decide, by decide⟩,
    ⟨free_of (by decide), canonical_of_inOrder (by decide), by decide, by decide, by decide, by decide⟩, by decide,
    by decide⟩

theorem test_premises_StepRunsFrontCommand :
    State.reset.pending = [] ∧ ∀ l, State.reset.map.reads.get l = none := ⟨rfl, fun l => by cases l <;> rfl⟩

/-- Reads of one tube, of two, and of a range cut at the last cell; the list of zone 4, of 6 entries, from its first
and from its last; then reads with two tubes left and with one, and a link that has none. -/
theorem test_premises_ExposureReadsTakeTubes :
    let s := after (.readExposure .b 7 1 32) bench
    let t := after (.zoneExposureTotal .b 7 4 0) bench
    (Free bench .b ∧ CoilsFit bench.cfg.coils) ∧
    (tubesOf bench (coveredBy 32 bench.cellTotal 0 3) = [[0, 1, 2]] ∧
      tubesOf bench (coveredBy 32 bench.cellTotal 1 32) = [[1, 2], [3, 4, 5], [6, 7], [8, 9]] ∧
      9 < bench.cellTotal ∧ 1 ≤ 1) ∧
    (4 ≤ 31 ∧ bench.zone 4 = some (zoneIn .latching .both) ∧ bench.coil 0 = some ⟨2, 3, 9600, 100⟩ ∧ 1 < 2 ∧ 2 < 3 ∧
      0 < (zoneList bench (zoneIn .latching .both)).length ∧
      5 < (zoneList bench (zoneIn .latching .both)).length) ∧
    (s.pending = [] ∧ s.map.reads.get .a = none ∧
      (s.map.reads.get .b).map ExposureRead.left = some [[3, 4, 5], [6, 7], [8, 9]]) ∧
    (t.pending = [] ∧ (t.map.reads.get .b).map ExposureRead.left = some [[3, 4, 5]] ∧
      (t.lnk.links.get .b).inService = some { tag := 7, command := 0x10 }) :=
  ⟨⟨free_of (by decide), by decide, by decide, by decide, by decide⟩, by decide +kernel, by decide +kernel,
    by decide +kernel, by decide +kernel⟩

/-- Links with and without edit rights, with Auto Clear off; zones 31 and 32; the two parts of zone 4's list of 6 cells; coils 7 and 8,
sources 1 and 2; a frozen map that holds nothing and one that is filled. -/
theorem test_premises_ReadsOnlyReply :
    let filled := after .freezeCompletion (freezing false none bench)
    (Free bench .a ∧ bench.holdsRights .a = true ∧ TablesCanonical bench) ∧
    (Free bench .b ∧ bench.holdsRights .b = false ∧ (bench.evt.links.get .b).autoClear = false) ∧
    (95 < 96 ∧ 96 ≤ 96 ∧ 1 ≤ 1) ∧
    (bench.pending = [] ∧ ∀ l, bench.map.reads.get l = none) ∧
    (31 < 32 ∧ 31 ≤ 31 ∧ bench.zone 31 = none) ∧
    (bench.zone 4 = some (zoneIn .latching .both) ∧ zoneList bench (zoneIn .latching .both) = [0, 1, 2, 3, 4, 5] ∧
      6 ≤ 6 ∧ 5 < 6) ∧
    (7 ≤ 7 ∧ 7 < 8 ∧ 1 < 2) ∧ bench.frz.header = none ∧ (Free filled .b ∧ filled.frz.header.isSome = true) :=
  ⟨⟨free_of (by decide), by decide, test_premises_canonical.1⟩, ⟨free_of (by decide), by decide, by decide⟩,
    by decide, ⟨rfl, fun l => by cases l <;> rfl⟩, by decide, by decide, by decide, by decide,
    free_of (by decide +kernel), by decide +kernel⟩

/-! ### The invariants hold on the bench, in a step that takes a tube -/

/-- The bench mapping, with a pass at its last tube and the tube step waiting. -/
def walkingBench : State := (passAt .walking 3 1 (mapping bench)).withPending [.tubeStep]

theorem step_walkingBench : step walkingBench = .next (after .tubeStep (walkingBench.withPending [])) := rfl

theorem canonical_walkingBench : TablesCanonical walkingBench := canonical_of_inOrder (by decide)

theorem test_premises_TablesStayCanonical :
    TablesCanonical walkingBench ∧ step walkingBench = .next (after .tubeStep (walkingBench.withPending [])) :=
  ⟨canonical_walkingBench, step_walkingBench⟩

theorem find_none_of_below {α : Type} {b n : Nat} {t : Table α} (h : Table.below b t = true) (hn : b ≤ n) :
    Table.find t n = none := by
  cases hf : Table.find t n with
  | none => rfl
  | some v =>
    have := List.all_eq_true.mp h _ (Table.find_mem hf)
    simp at this
    omega

theorem test_premises_CellsStayInGeometry : CellsFitGeometry walkingBench := by
  have total : walkingBench.cellTotal = 10 := by decide
  refine ⟨⟨by decide, by decide, by decide, by decide⟩, ⟨by decide, by decide, ?_⟩, ⟨?_, by decide⟩, ?_,
    (fun l x h => by cases l <;> cases h), ?_⟩
  · intro p hp
    have : p.coil = 3 ∧ p.tube = 1 := by
      simp only [walkingBench, passAt, State.withPending, State.withMap, Option.some.injEq] at hp
      subst hp
      exact ⟨rfl, rfl⟩
    exact ⟨⟨2, 2, 9600, 100⟩, by rw [this.1]; decide, by rw [this.2]; decide⟩
  · intro n hn
    rw [total] at hn
    exact ⟨rfl, rfl, rfl, rfl, find_none_of_below (b := 10) (by decide) hn, find_none_of_below (b := 10) (by decide) hn⟩
  · intro x hx
    have hx' : x = (4, zoneIn .latching .both) := by
      simpa [walkingBench, passAt, mapping, bench, State.withPending, State.withMap, State.withTmb] using hx
    subst hx'
    exact ⟨by decide, ⟨2, 3, 9600, 100⟩, by decide, by decide, by decide, by decide, by decide⟩
  · intro x hx
    simp [walkingBench, passAt, mapping, bench, State.reset, State.withPending, State.withMap, State.withTmb,
      Store.configImages] at hx

theorem test_premises_MapValuesStayInRange : MapValuesInRange walkingBench := by
  refine ⟨fun n => ⟨⟨fun _ => rfl, fun _ => rfl⟩, fun v h => by cases h⟩, fun n => ?_⟩
  have all : ∀ x ∈ walkingBench.acq.channels,
      (∀ g, x.2.lastGood = some g → MapValue g.value) ∧ ∀ k, x.2.candidate = some k → MapValue k.value := by
    simp [walkingBench, passAt, mapping, bench, State.withPending, State.withMap, State.withTmb, channelIn,
      Channel.unused, MapValue, mapLow, mapHigh]
  cases h : Table.find walkingBench.acq.channels n with
  | none => simp [Channel.InRange, State.channel, Table.get, h, Channel.unused]
  | some c => simpa [Channel.InRange, State.channel, Table.get, h] using all _ (Table.find_mem h)

theorem test_premises_AssignmentsStayObedient : AnchorsObey walkingBench := by
  refine ⟨by decide, ⟨by decide, by decide, by decide, by decide, ?_⟩, ?_⟩
  · intro x hx
    have hx' : x = (1, { channel := 2, offset := 40 }) := by
      simpa [walkingBench, passAt, mapping, bench, State.withPending, State.withMap, State.withTmb] using hx
    subst hx'
    exact ⟨⟨(1, 1), by decide, rfl⟩, (2, 2), by decide, rfl, ⟨0, 0, 1⟩, ⟨0, 0, 2⟩, by decide, by decide, rfl, rfl,
      by decide⟩
  · intro x hx
    simp [walkingBench, passAt, mapping, bench, State.reset, State.withPending, State.withMap, State.withTmb,
      Store.configImages] at hx

/-- The bench with Link B's Read Exposure of cells 1 to 9 in progress, and Link A's Save Configuration in flight. -/
def readingBench : State := after (.saveConfiguration .a 1) (after (.readExposure .b 7 1 32) bench)

theorem test_premises_CellsStayInGeometry_reads : ReadsInTubes readingBench := by
  have reads : ∀ l, readingBench.map.reads.get l =
      match l with
      | .b => some
        { reply := .cells true [(9600, 100), (9600, 100)], left := [[3, 4, 5], [6, 7], [8, 9]]
          taken := [⟨1, 0, 0⟩, ⟨2, 0, 0⟩] }
      | _ => none := by
    intro l
    cases l <;> decide +kernel
  intro l x h
  rw [reads] at h
  cases l <;> simp only [Option.some.injEq, reduceCtorEq] at h
  subst h
  refine ⟨?_, fun n hn y hy => ?_⟩
  · have parted : PartedByTube readingBench _ (tubesOf readingBench [3, 4, 5, 6, 7, 8, 9]) :=
      tubesOf_parted readingBench (by decide +kernel) (by decide) (by decide +kernel)
    have tubes : tubesOf readingBench [3, 4, 5, 6, 7, 8, 9] = [[3, 4, 5], [6, 7], [8, 9]] := by decide +kernel
    rw [tubes] at parted
    exact parted
  · have apart : ∀ n ∈ [3, 4, 5, 6, 7, 8, 9], ∀ y ∈ [(⟨1, 0, 0⟩ : TakenCell), ⟨2, 0, 0⟩],
        onOneTube readingBench n y.cell = false := by decide +kernel
    rw [← onOneTube_iff, apart n hn y hy]
    decide

theorem test_premises_LinksStayBounded :
    LinksBounded readingBench ∧ ResponsesFit readingBench ∧ HeldRequestsStand readingBench ∧
    step readingBench = .next (takeTubes readingBench) := by
  have read : readingBench.map.reads.get .b =
      some
        { reply := .cells true [(9600, 100), (9600, 100)], left := [[3, 4, 5], [6, 7], [8, 9]]
          taken := [⟨1, 0, 0⟩, ⟨2, 0, 0⟩] } := by decide +kernel
  have none_a : readingBench.map.reads.get .a = none := by decide +kernel
  have none_e : readingBench.map.reads.get .e = none := by decide +kernel
  have fits : ∀ l x, readingBench.map.reads.get l = some x → x.Fits ∧ x.left ≠ [] := by
    intro l x h
    cases l
    · rw [none_a] at h
      cases h
    · rw [read, Option.some.injEq] at h
      subst h
      exact ⟨⟨by decide, by decide⟩, by decide⟩
    · rw [none_e] at h
      cases h
  have queues : ∀ l, (readingBench.lnk.links.get l).queue = [] := by
    intro l
    cases l <;> decide +kernel
  have receivers : ∀ l, (readingBench.lnk.links.get l).receiver = .hunting := by
    intro l
    cases l <;> decide +kernel
  have service : ∀ l, (readingBench.lnk.links.get l).inService =
      match l with
      | .a => some ⟨1, 0x37⟩
      | .b => some ⟨7, 0x0F⟩
      | .e => none := by
    intro l
    cases l <;> decide +kernel
  have requester : readingBench.nvs.save.map Save.requester = some (some .a) := by decide +kernel
  refine ⟨fun l => ⟨?_, ?_, by cases l <;> decide +kernel⟩, ⟨⟨by decide +kernel, fun h hh => by cases hh⟩, ?_, ?_⟩,
    ⟨?_, ?_, ?_⟩, rfl⟩
  · rw [queues]
    split <;> decide
  · rw [receivers]
    trivial
  · exact fun l x h => (fits l x h).1
  · intro l r hr
    rw [queues] at hr
    cases hr
  · intro l
    rw [service]
    cases l <;> simp [read, none_a, none_e]
  · exact fun l x h => (fits l x h).2
  · intro l
    rw [service]
    obtain ⟨x, hx, hr⟩ := Option.map_eq_some_iff.mp requester
    simp only [hx, Option.some.injEq, exists_eq_left', hr]
    cases l <;> simp

theorem test_premises_EventsAndSlotStayLegal :
    HistoryConsecutive walkingBench ∧ AttentionFollowsFlags walkingBench ∧ SlotOnlyWhileSweeping walkingBench := by
  refine ⟨?_, fun l => by cases l <;> decide, fun _ => rfl⟩
  unfold HistoryConsecutive
  decide

theorem test_premises_AlarmsStayWithMap :
    AlarmsFollowMap walkingBench ∧ HotListOrdered walkingBench ∧ TablesCanonical walkingBench :=
  ⟨⟨fun _ => ⟨fun _ => rfl, fun _ => rfl⟩, by decide, fun h => absurd h (by decide)⟩,
    ⟨by decide, List.Pairwise.nil⟩, canonical_walkingBench⟩

end Sys2Proof.Tests
end

/-! ## Stops: everything that one changes (R69)

A stop appends its events, answers the requests held for it, and replaces the Timebase, SCN, MAP and ALM. The parts are
named here, `stopTakesEffect_eq` puts the whole effect in one equation, and each block is read off from it. -/

namespace Sys2Proof.Machine

/-! ### Tables filtered in place -/

/-- In a table in order, entries rewritten under their own numbers are read back as they were rewritten. -/
theorem Table.find_filterMap {α β : Type} {t : Table α} (h : Table.rising t = true) (f : Nat × α → Option (Nat × β))
    (hf : ∀ x y, f x = some y → y.1 = x.1) (n : Nat) :
    Table.find (t.filterMap f) n = (Table.find t n).bind fun v => (f (n, v)).map Prod.snd := by
  induction t with
  | nil => rfl
  | cons x t ih =>
    obtain ⟨j, v⟩ := x
    obtain ⟨hlt, hrest⟩ := (Table.rising_cons j v t).1 h
    have ih := ih hrest
    rw [Table.find_cons]
    by_cases hj : j = n
    · subst hj
      cases hv : f (j, v) with
      | none => simp [hv, ih, Table.find_eq_none_of_lt hlt]
      | some y =>
        obtain ⟨i, w⟩ := y
        obtain rfl : i = j := hf _ _ hv
        simp [hv, Table.find_cons]
    · cases hv : f (j, v) with
      | none => simp [hv, ih, hj]
      | some y =>
        obtain ⟨i, w⟩ := y
        obtain rfl : i = j := hf _ _ hv
        simp [hv, Table.find_cons, hj, ih]

/-! ### Step 3: alarm records -/

/-- A record that never raised an occurrence is, returned to Normal, the record that no table lists. -/
theorem AlarmRecord.toNormal_of_occurrence_zero {r : AlarmRecord} (h : r.occurrence = 0) :
    r.toNormal = AlarmRecord.reset := by
  rw [AlarmRecord.toNormal, h]
  rfl

/-- R69, step 3: every record returns to Normal with its occurrence number. -/
theorem silenceAlarms_alarm {s : State} (h : Table.rising s.alm.records = true) (pass n : Nat) :
    (silenceAlarms pass s).alarm n = (s.alarm n).toNormal := by
  simp only [State.alarm, Table.get, silenceAlarms, State.withAlm_alm]
  rw [Table.find_filterMap h]
  · cases Table.find s.alm.records n with
    | none => rfl
    | some r =>
      by_cases hr : r.occurrence = 0
      · simp [hr, AlarmRecord.toNormal_of_occurrence_zero hr]
      · simp [hr]
  · intro x y hxy
    split at hxy
    · cases hxy
    · cases hxy
      rfl

/-! ### Step 6: held requests -/

theorem onLink_of_fixed {s : State} {l : Link} {f : LinkState → LinkState}
    (h : f (s.lnk.links.get l) = s.lnk.links.get l) : onLink s l f = s := by
  rw [onLink, h, PerLink.set_get_self]
  rfl

/-- Link `l`'s part once the operation that `starter` began is over (R69, R146). -/
def LinkState.joined (commands : List Byte) (starter : Link) (payload : List Byte) (l : Link) (x : LinkState) :
    LinkState :=
  match x.inService with
  | none => x
  | some q => if q.command ∈ commands then x.answer (if l = starter then .ok else .merged) payload else x

theorem LinkState.joined_free {commands : List Byte} {starter l : Link} {payload : List Byte} {x : LinkState}
    (h : x.inService = none) : x.joined commands starter payload l = x := by
  simp [LinkState.joined, h]

theorem LinkState.joined_held {commands : List Byte} {starter l : Link} {payload : List Byte} {x : LinkState}
    {q : InService} (h : x.inService = some q) (hq : q.command ∈ commands) :
    x.joined commands starter payload l = x.answer (if l = starter then .ok else .merged) payload := by
  simp [LinkState.joined, h, hq]

theorem LinkState.joined_other {commands : List Byte} {starter l : Link} {payload : List Byte} {x : LinkState}
    {q : InService} (h : x.inService = some q) (hq : q.command ∉ commands) :
    x.joined commands starter payload l = x := by
  simp [LinkState.joined, h, hq]

/-- An answer that is no refusal leaves the last refusal (R165, R169). -/
theorem LinkState.answer_of_accepted {x : LinkState} {q : InService} {r : Result} (h : x.inService = some q)
    (hr : r.isRefusal = false) (payload : List Byte) :
    x.answer r payload =
      { x with
        inService := none
        queue := x.queue ++ [{ tag := q.tag, command := q.command, result := r, payload := payload }] } := by
  simp [LinkState.answer, LinkState.enqueue, h, hr]

theorem answerJoined_eq_onLink (commands : List Byte) (starter : Link) (payload : List Byte) (s : State) (l : Link) :
    answerJoined commands starter payload s l = onLink s l (LinkState.joined commands starter payload l) := by
  unfold answerJoined
  cases h : (s.lnk.links.get l).inService with
  | none => exact (onLink_of_fixed (LinkState.joined_free h)).symm
  | some q =>
    by_cases hq : q.command ∈ commands
    · simp only [hq, if_true, answerHeld, onLink, LinkState.joined_held h hq]
    · simp only [hq, if_false]
      exact (onLink_of_fixed (LinkState.joined_other h hq)).symm

theorem answerAllJoined_eq_onLink (commands : List Byte) (starter : Link) (payload : List Byte) (s : State) :
    answerAllJoined commands starter payload s =
      onLink
        (onLink (onLink s .a (LinkState.joined commands starter payload .a)) .b
          (LinkState.joined commands starter payload .b))
        .e (LinkState.joined commands starter payload .e) := by
  simp only [answerAllJoined, List.foldl_cons, List.foldl_nil, answerJoined_eq_onLink]

/-- Answers change LNK alone. -/
theorem answerAllJoined_frame (commands : List Byte) (starter : Link) (payload : List Byte) (s : State) :
    answerAllJoined commands starter payload s = s.withLnk (answerAllJoined commands starter payload s).lnk := by
  rw [answerAllJoined_eq_onLink]
  rfl

/-- Each link is answered for itself. -/
theorem answerAllJoined_get (commands : List Byte) (starter : Link) (payload : List Byte) (s : State) (l : Link) :
    (answerAllJoined commands starter payload s).lnk.links.get l
      = (s.lnk.links.get l).joined commands starter payload l := by
  rw [answerAllJoined_eq_onLink]
  cases l <;> rfl

/-- The whole of the answers to an operation's held requests (R69, R146). -/
theorem joinedAnswered_answerAllJoined (commands : List Byte) (starter : Link) (payload : List Byte) (s : State) :
    JoinedAnswered s (answerAllJoined commands starter payload s) commands starter payload := by
  refine ⟨by rw [answerAllJoined_eq_onLink]; rfl, by rw [answerAllJoined_eq_onLink]; rfl, fun l => ?_⟩
  rw [answerAllJoined_get]
  cases h : (s.lnk.links.get l).inService with
  | none => exact LinkState.joined_free h
  | some q =>
    by_cases hq : q.command ∈ commands
    · have accepted : (if l = starter then Result.ok else .merged).isRefusal = false := by split <;> rfl
      rw [LinkState.joined_held h hq, LinkState.answer_of_accepted h accepted]
      simp only [hq, if_true]
    · simp only [LinkState.joined_other h hq, hq, if_false]

/-- What the answers are judged against is LNK alone. -/
theorem JoinedAnswered.of_lnk_eq {s u t : State} {commands : List Byte} {starter : Link} {payload : List Byte}
    (h : JoinedAnswered s t commands starter payload) (hl : s.lnk = u.lnk) :
    JoinedAnswered u t commands starter payload := by
  unfold JoinedAnswered at h ⊢
  rwa [← hl]

/-! ### Step 2: the sweep -/

/-- SCN with a sweep in progress cancelled and the pending slot emptied (R69, step 2). -/
def cancelledScanner (s : State) : Scanner :=
  match s.scn.sweep with
  | none => s.scn
  | some x =>
    { s.scn with
      sweep := none, pendingSlot := none
      lastSweep := some
        { kind := x.kind, outcome := .cancelled, taken := x.taken, discarded := x.discarded, missed := x.missed
          lastFault := x.lastFault, endStamp := s.tmb.heaterClock, clockSet := s.tmb.clockSet } }

/-- The event of a sweep that a stop cancels. -/
def cancelNotes (sweep : Option Sweep) : List Note := (sweep.map (sweepNote · .cancelled)).toList

theorem cancelSweepNow_eq (s : State) :
    cancelSweepNow s = appendEvents (s.withScn (cancelledScanner s)) (cancelNotes s.scn.sweep) := by
  unfold cancelSweepNow cancelledScanner cancelNotes
  cases s.scn.sweep <;> rfl

/-! ### Step 1: the pass -/

/-- MAP with the pass that a stop abandons closed (R69, step 1; R83). -/
def abandonedMap (walking : Option Pass) (s : State) : MapEngine :=
  match walking with
  | none => s.map
  | some p => { s.map with pass := none, establishCount := 0, lastPass := some (lastPassOf s p (some .stop)) }

/-- The event of a pass that a stop abandons. -/
def abandonNotes (walking : Option Pass) : List Note :=
  (walking.map fun p => { kind := .passAbandoned, subject := p.coil, detail := AbandonReason.stop.detail }).toList

/-! ### The whole effect -/

/-- MappingStopped (R69, step 5). -/
def stopNote (setter : Link) (abandoned : Bool) : Note :=
  { kind := .mappingStopped, subject := linkNumber setter, detail := if abandoned then 1 else 0 }

/-- The events of a stop, in the order of its steps (R69). -/
def stopNotes (setter : Link) (walking : Option Pass) (s : State) : List Note :=
  abandonNotes walking ++ cancelNotes s.scn.sweep ++ [stopNote setter walking.isSome]

/-- The blocks as a stop leaves them, before its events and its answers (R69, steps 1 to 4). -/
def stoppedBlocks (walking : Option Pass) (s : State) : State :=
  { s with
    tmb := { s.tmb with passCounter := none }
    scn := cancelledScanner s
    map := { abandonedMap walking s with stopPending := none, mapState := .stopped }
    alm := (silenceAlarms s.map.lastCompleted s).alm }

/-- R69 in one equation: the blocks, then the events in order, then the answers. -/
theorem stopTakesEffect_eq (setter : Link) (walking : Option Pass) (s : State) :
    stopTakesEffect setter walking s =
      answerAllJoined [stopMappingCode] setter []
        (appendEvents (stoppedBlocks walking s) (stopNotes setter walking s)) := by
  unfold stopTakesEffect finishStop
  cases walking <;> cases h : s.scn.sweep
  all_goals simp only [cancelSweepNow_eq, stopNotes, stoppedBlocks, cancelledScanner, abandonPass,
    appendEvent_scn, State.withMap_scn, h]
  all_goals rfl

/-- The events and the answers of a stop change EVT and LNK alone. -/
theorem stopTakesEffect_blocks (setter : Link) (walking : Option Pass) (s : State) :
    let t := stopTakesEffect setter walking s
    t = ((stoppedBlocks walking s).withEvt t.evt).withLnk t.lnk := by
  rw [stopTakesEffect_eq, answerAllJoined_frame, appendEvents_frame]
  rfl

/-- A stop leaves ACQ, FRZ, CFG, NVS and the waiting commands. -/
theorem stopTakesEffect_frame (setter : Link) (walking : Option Pass) (s : State) :
    let t := stopTakesEffect setter walking s
    t = { s with tmb := t.tmb, scn := t.scn, map := t.map, alm := t.alm, evt := t.evt, lnk := t.lnk } := by
  rw [stopTakesEffect_blocks]
  rfl

theorem stopTakesEffect_tmb (setter : Link) (walking : Option Pass) (s : State) :
    (stopTakesEffect setter walking s).tmb = { s.tmb with passCounter := none } :=
  congrArg State.tmb (stopTakesEffect_blocks setter walking s)

theorem stopTakesEffect_scn (setter : Link) (walking : Option Pass) (s : State) :
    (stopTakesEffect setter walking s).scn = cancelledScanner s :=
  congrArg State.scn (stopTakesEffect_blocks setter walking s)

theorem stopTakesEffect_map (setter : Link) (walking : Option Pass) (s : State) :
    (stopTakesEffect setter walking s).map
      = { abandonedMap walking s with stopPending := none, mapState := .stopped } :=
  congrArg State.map (stopTakesEffect_blocks setter walking s)

theorem stopTakesEffect_alm (setter : Link) (walking : Option Pass) (s : State) :
    (stopTakesEffect setter walking s).alm = (silenceAlarms s.map.lastCompleted s).alm := by
  rw [stopTakesEffect_blocks]
  rfl

/-- Of the Timebase, appends read the heater clock and Clock Set alone (R152). -/
theorem appendEvents_evt_congr_clock {s t : State} (ns : List Note) (he : s.evt = t.evt)
    (hclock : s.tmb.heaterClock = t.tmb.heaterClock) (hset : s.tmb.clockSet = t.tmb.clockSet) :
    (appendEvents s ns).evt = (appendEvents t ns).evt := by
  induction ns generalizing s t with
  | nil => exact he
  | cons n ns ih =>
    rw [appendEvents_cons, appendEvents_cons]
    refine ih ?_ hclock hset
    simp only [appendEvent, State.withEvt_evt, he, hclock, hset]

theorem stopTakesEffect_evt (setter : Link) (walking : Option Pass) (s : State) :
    (stopTakesEffect setter walking s).evt = (appendEvents s (stopNotes setter walking s)).evt := by
  rw [stopTakesEffect_eq, answerAllJoined_frame]
  exact appendEvents_evt_congr_clock _ rfl rfl rfl

theorem stopTakesEffect_alarm {s : State} (h : Table.rising s.alm.records = true) (setter : Link)
    (walking : Option Pass) (n : Nat) : (stopTakesEffect setter walking s).alarm n = (s.alarm n).toNormal := by
  rw [State.alarm, stopTakesEffect_alm]
  exact silenceAlarms_alarm h s.map.lastCompleted n

theorem stopTakesEffect_joinedAnswered (setter : Link) (walking : Option Pass) (s : State) :
    JoinedAnswered s (stopTakesEffect setter walking s) [stopMappingCode] setter [] := by
  rw [stopTakesEffect_eq]
  exact (joinedAnswered_answerAllJoined _ _ _ _).of_lnk_eq (by rw [appendEvents_lnk]; rfl)

/-- Settles O34, block by block from the one equation of a stop. -/
theorem stopTakesWholeEffect : Obligations.StopTakesWholeEffect := by
  unfold Obligations.StopTakesWholeEffect
  intro s setter walking hs t passNotes sweepNotes note
  obtain ⟨recordsRise, -⟩ := hs.records
  refine ⟨stopTakesEffect_frame setter walking s, ?events, stopTakesEffect_tmb setter walking s, ?idle, ?sweeping,
    ?notWalking, ?walking, ?alarmUnit, stopTakesEffect_alarm recordsRise setter walking,
    stopTakesEffect_joinedAnswered setter walking s⟩
  case events =>
    have passed : passNotes = abandonNotes walking := by cases walking <;> rfl
    have swept : sweepNotes = cancelNotes s.scn.sweep := by
      simp only [sweepNotes]
      cases s.scn.sweep <;> rfl
    have noted : note = stopNote setter walking.isSome := by cases setter <;> rfl
    rw [passed, swept, noted]
    exact stopTakesEffect_evt setter walking s
  case idle =>
    intro h
    simp only [t, stopTakesEffect_scn, cancelledScanner, h]
  case sweeping =>
    intro x h
    simp only [t, stopTakesEffect_scn, cancelledScanner, h]
  case notWalking =>
    rintro rfl
    exact stopTakesEffect_map setter none s
  case walking =>
    rintro p rfl
    exact stopTakesEffect_map setter (some p) s
  case alarmUnit =>
    simp only [t, stopTakesEffect_alm]
    rfl

end Sys2Proof.Machine

/-! ## Exposure and peaks: the multiplier (R108) and the clears (R112, R116)

A clear tests each listed cell for its coil. `coilOfCell_eq_iff` turns that test into the interval of R2 and R3, and
`Table.length_filter_eq_range'` counts a table's entries above 0 along such an interval. -/

namespace Sys2Proof.Machine

/-! ### The multiplier -/

theorem multiplier_of_le {design : Nat} {v : Int} (step : Nat) (h : v ≤ design) : multiplier design step v = 0 :=
  if_pos (by omega)

theorem multiplier_of_lt {design : Nat} {v : Int} (step : Nat) (h : (design : Int) < v) :
    multiplier design step v = 2 ^ min ((v - design).toNat / step) 15 :=
  if_neg (by omega)

/-- Settles O39: above the design temperature, the bounds on the excess say that its quotient by the step is `q`. -/
theorem multiplierDoublesEachStep : Obligations.MultiplierDoublesEachStep := by
  unfold Obligations.MultiplierDoublesEachStep
  intro design step v _
  refine ⟨multiplier_of_le step, fun q hv hlow hhigh => ?_⟩
  obtain ⟨excess, hexcess⟩ := Int.eq_ofNat_of_zero_le (a := v - design) (by omega)
  rw [hexcess] at hlow hhigh
  have whole_steps : excess / step = q := Nat.div_eq_of_lt_le (by exact_mod_cast hlow) (by exact_mod_cast hhigh)
  rw [multiplier_of_lt step hv, hexcess, Int.toNat_natCast, whole_steps]

/-! ### The cells of a coil (R2, R3) -/

theorem baseCell_cons (j : Nat) (d : Dims) (g : Geometry) (k : Nat) :
    baseCell ((j, d) :: g) k = (if j < k then d.cells else 0) + baseCell g k := by
  by_cases h : j < k <;> simp [baseCell, Table.restrict, cellTotal, h]

theorem baseCell_eq_zero_of_lt {g : Geometry} {k : Nat} (h : ∀ x ∈ g, k < x.1) : baseCell g k = 0 := by
  induction g with
  | nil => rfl
  | cons x g ih =>
    have hx : ¬x.1 < k := Nat.lt_asymm (h x List.mem_cons_self)
    rw [baseCell_cons, if_neg hx, ih fun y hy => h y (List.mem_cons_of_mem x hy)]

/-- A coil's cells are the T × E numbers from its base. -/
theorem placeOf_coil_eq_iff {g : Geometry} (hg : Table.rising g = true) {k : Nat} {d : Dims}
    (hd : Table.find g k = some d) (n : Nat) :
    (placeOf g n).map Place.coil = some k ↔ baseCell g k ≤ n ∧ n < baseCell g k + d.cells := by
  induction g generalizing n with
  | nil => cases hd
  | cons x g ih =>
    obtain ⟨j, e⟩ := x
    obtain ⟨above, hrest⟩ := (Table.rising_cons j e g).1 hg
    rw [Table.find_cons] at hd
    rw [baseCell_cons, placeOf]
    by_cases hj : j = k
    · subst hj
      obtain rfl : e = d := by simpa using hd
      rw [baseCell_eq_zero_of_lt above]
      by_cases hn : n < e.cells
      · simp [hn]
      · have elsewhere : (placeOf g (n - e.cells)).map Place.coil ≠ some j := by
          intro h
          obtain ⟨p, hp, hc⟩ := Option.map_eq_some_iff.1 h
          obtain ⟨y, hy, hyc⟩ := placeOf_coil_mem hp
          have := above y hy
          omega
        simp [hn, elsewhere]
    · rw [if_neg hj] at hd
      have hjk : j < k := above _ (Table.find_mem hd)
      rw [if_pos hjk]
      by_cases hn : n < e.cells
      · simp only [hn, if_true, Option.map_some, Option.some.injEq, hj, false_iff]
        omega
      · simp only [hn, if_false, ih hrest hd]
        omega

theorem coilOfCell_eq_iff {s : State} (hs : Table.rising s.cfg.coils = true) {k : Nat} {c : CoilDef}
    (hc : s.coil k = some c) (n : Nat) :
    s.coilOfCell n = some k ↔
      baseCell s.geometry k ≤ n ∧ n < baseCell s.geometry k + c.tubes * c.elevations := by
  have listed : Table.find s.geometry k = some c.dims := by
    rw [State.geometry, geometryOf, Table.find_mapEntries, ← State.coil, hc]
    rfl
  have rises : Table.rising s.geometry = true := Table.rising_mapEntries hs fun _ c => c.dims
  exact placeOf_coil_eq_iff rises listed n

theorem inCoil_iff (s : State) (k n : Nat) : inCoil s k n = true ↔ s.coilOfCell n = some k := decide_eq_true_iff

/-! ### The cells above 0 (R112, step 1) -/

/-- What reads above 0 is listed, for a number without an entry reads 0. -/
theorem Table.get_zero_pos_iff {t : Table Nat} (h : Table.rising t = true) (n : Nat) :
    0 < Table.get 0 t n ↔ ∃ v, (n, v) ∈ t ∧ 0 < v := by
  simp only [← Table.find_eq_some_iff h, Table.get]
  cases Table.find t n <;> simp

/-- In a table in order, the entries above 0 in an interval are as many as its numbers that read above 0: both lists
hold the same numbers, each once. -/
theorem Table.length_filter_eq_range' {t : Table Nat} (h : Table.rising t = true) {p : Nat → Bool} {first count : Nat}
    (hp : ∀ n, p n = true ↔ first ≤ n ∧ n < first + count) :
    (t.filter fun x => p x.1 && decide (0 < x.2)).length
      = ((List.range' first count).filter fun n => decide (0 < Table.get 0 t n)).length := by
  have listed_once : ((t.filter fun x => p x.1 && decide (0 < x.2)).map Prod.fst).Nodup := by
    have rises := (Table.rising_iff_pairwise _).1 (Table.rising_filter h fun x => p x.1 && decide (0 < x.2))
    exact List.pairwise_map.2 (rises.imp Nat.ne_of_lt)
  have range_once := (List.nodup_range' (s := first) (n := count)).filter fun n => decide (0 < Table.get 0 t n)
  have same_numbers := (List.perm_ext_iff_of_nodup listed_once range_once).2 fun n => by
    simp only [List.mem_map, List.mem_filter, Bool.and_eq_true, decide_eq_true_eq, List.mem_range'_1,
      Table.get_zero_pos_iff h, hp]
    constructor
    · rintro ⟨⟨_, v⟩, ⟨hmem, hin, hv⟩, rfl⟩
      exact ⟨hin, v, hmem, hv⟩
    · rintro ⟨hin, v, hmem, hv⟩
      exact ⟨(n, v), ⟨hmem, hin, hv⟩, rfl⟩
  rw [← same_numbers.length_eq, List.length_map]

theorem exposedCells_eq {s : State} (hs : TablesCanonical s) {k : Nat} {c : CoilDef} (hc : s.coil k = some c) :
    exposedCells s k
      = ((List.range' (baseCell s.geometry k) (c.tubes * c.elevations)).filter fun n =>
          decide (0 < s.accumulator n)).length := by
  obtain ⟨rises, -⟩ := hs.exposure
  exact Table.length_filter_eq_range' rises fun n => (inCoil_iff s k n).trans (coilOfCell_eq_iff hs.coils hc n)

/-! ### The owners' answers -/

/-- What a clear leaves of a table by cell: the entries of the other coils (R112, R116). -/
def withoutCoil {α : Type} (s : State) (k : Nat) (t : Table α) : Table α :=
  Table.restrict (fun n => !inCoil s k n) t

theorem find_withoutCoil {α : Type} (s : State) (k : Nat) (t : Table α) (n : Nat) :
    Table.find (withoutCoil s k t) n = if s.coilOfCell n = some k then none else Table.find t n := by
  rw [withoutCoil, Table.find_restrict]
  by_cases h : s.coilOfCell n = some k <;> simp [inCoil, h]

theorem ownClearPeaks_above {k : Nat} (h : 7 < k) (s : State) :
    ownClearPeaks (.coil k) s = (s, .now .badArgument []) := if_pos h

theorem ownClearPeaks_undefined {s : State} {k : Nat} (h : k ≤ 7) (hc : s.coil k = none) :
    ownClearPeaks (.coil k) s = (s, .now .notConfigured []) := by
  simp [ownClearPeaks, refuse, Nat.not_lt.2 h, hc]

theorem ownClearPeaks_taken {s : State} {k : Nat} {c : CoilDef} (h : k ≤ 7) (hc : s.coil k = some c) :
    ownClearPeaks (.coil k) s
      = (s.withMap { s.map with peaks := withoutCoil s k s.map.peaks }, .now .ok []) := by
  simp [ownClearPeaks, withoutCoil, Nat.not_lt.2 h, hc]

theorem ownClearExposure_above {k : Nat} (h : 7 < k) (s : State) :
    ownClearExposure k s = (s, .now .badArgument []) := if_pos h

theorem ownClearExposure_undefined {s : State} {k : Nat} (h : k ≤ 7) (hc : s.coil k = none) :
    ownClearExposure k s = (s, .now .notConfigured []) := by
  simp [ownClearExposure, refuse, Nat.not_lt.2 h, hc]

theorem ownClearExposure_taken {s : State} {k : Nat} {c : CoilDef} (h : k ≤ 7) (hc : s.coil k = some c) :
    ownClearExposure k s
      = (appendEvent (s.withMap { s.map with exposure := withoutCoil s k s.map.exposure })
            { kind := .exposureCleared, subject := k, detail := exposedCells s k },
          .now .ok []) := by
  simp [ownClearExposure, withoutCoil, Nat.not_lt.2 h, hc]

/-! ### The commands -/

/-- A command that needs rights, from a link without them (R167, check 3). -/
theorem serve_without_rights {s : State} {l : Link} {tag code : Byte} {f : Option Owner} (hs : Free s l)
    (hr : s.holdsRights l = false) (hk : commandKnown code = true) (hn : commandNeedsRights code = true) :
    serve l tag code f s = replied s l tag code .notPermitted [] :=
  serve_refused hs (by simp [linkRefusal, hk, hn, hr])

theorem exec_clearPeaks (l : Link) (tag : Byte) (form : ClearPeaksForm) (s : State) :
    exec (.clearPeaks l tag form) s = .next (serve l tag 0x33 (some (ownClearPeaks form)) s) := rfl

theorem exec_clearExposure (l : Link) (tag : Byte) (k : Nat) (s : State) :
    exec (.clearExposure l tag k) s = .next (serve l tag 0x34 (some (ownClearExposure k)) s) := rfl

/-- Clear Peaks from a link with rights is what its owner answers (R116). -/
theorem exec_clearPeaks_of_answer {s t : State} {l : Link} {form : ClearPeaksForm} {r : Result} {p : List Byte}
    (hs : Ready s l) (tag : Byte) (h : ownClearPeaks form s = (t, .now r p)) :
    exec (.clearPeaks l tag form) s = .next (replied t l tag 0x33 r p) := by
  rw [exec_clearPeaks, serve_operating hs (by decide) (by decide) h]

/-- Clear Exposure from a link with rights is what its owner answers (R112). -/
theorem exec_clearExposure_of_answer {s t : State} {l : Link} {k : Nat} {r : Result} {p : List Byte}
    (hs : Ready s l) (tag : Byte) (h : ownClearExposure k s = (t, .now r p)) :
    exec (.clearExposure l tag k) s = .next (replied t l tag 0x34 r p) := by
  rw [exec_clearExposure, serve_operating hs (by decide) (by decide) h]

/-- Settles O40, refusal by refusal, and then by what `withoutCoil` keeps of each table. -/
theorem clearsEmptyTheirCoil : Obligations.ClearsEmptyTheirCoil := by
  unfold Obligations.ClearsEmptyTheirCoil
  intro s l tag free
  refine ⟨fun noRights => ⟨fun k => ?_, fun form => ?_⟩, fun rights => ?_⟩
  · rw [exec_clearExposure, serve_without_rights free noRights (by decide) (by decide)]
  · rw [exec_clearPeaks, serve_without_rights free noRights (by decide) (by decide)]
  have ready : Ready s l := ⟨free, rights⟩
  refine ⟨fun k hk => ⟨?_, ?_⟩, fun k hk hc => ⟨?_, ?_⟩, exec_clearPeaks_of_answer ready tag rfl, ?taken⟩
  · exact exec_clearExposure_of_answer ready tag (ownClearExposure_above hk s)
  · exact exec_clearPeaks_of_answer ready tag (ownClearPeaks_above hk s)
  · exact exec_clearExposure_of_answer ready tag (ownClearExposure_undefined hk hc)
  · exact exec_clearPeaks_of_answer ready tag (ownClearPeaks_undefined hk hc)
  case taken =>
    intro canonical k c hk hc first inside
    have inside_iff (n : Nat) : s.coilOfCell n = some k ↔ inside n := coilOfCell_eq_iff canonical.coils hc n
    refine ⟨⟨withoutCoil s k s.map.peaks, ?_, fun n => ⟨fun hn => ?_, fun hn => ?_⟩⟩,
      withoutCoil s k s.map.exposure, ?_, fun n => ⟨fun hn => ?_, fun hn => ?_⟩⟩
    · exact exec_clearPeaks_of_answer ready tag (ownClearPeaks_taken hk hc)
    · rw [find_withoutCoil, if_pos ((inside_iff n).2 hn)]
    · rw [find_withoutCoil, if_neg (mt (inside_iff n).1 hn)]
    · rw [exec_clearExposure_of_answer ready tag (ownClearExposure_taken hk hc), exposedCells_eq canonical hc]
    · rw [Table.get, find_withoutCoil, if_pos ((inside_iff n).2 hn), Option.getD_none]
    · rw [Table.get, find_withoutCoil, if_neg (mt (inside_iff n).1 hn), State.accumulator, Table.get]

end Sys2Proof.Machine

/-! ## The hot tube list (R139)

The list is the first 16 of `hotRanking`: the candidates of the cell table, sorted by insertion. Cells of a table in
order differ, and on entries of different cells `HotEntry.before` decides every pair, so the sort is strict. -/

namespace Sys2Proof.Machine

/-! ### What an evaluation leaves unchanged -/

/-- A zone's evaluation changes ALM and EVT alone (R125, step 1). -/
theorem evaluateZone_frame (pass endUptime : Nat) (s : State) (entry : Nat × Zone) :
    let t := evaluateZone pass endUptime s entry
    t = (s.withAlm t.alm).withEvt t.evt := by
  simp only [evaluateZone]
  split <;> rfl

theorem foldl_evaluateZone_frame (pass endUptime : Nat) (zones : Table Zone) (s : State) :
    let t := zones.foldl (evaluateZone pass endUptime) s
    t = (s.withAlm t.alm).withEvt t.evt := by
  induction zones generalizing s with
  | nil => rfl
  | cons z zones ih =>
    rw [List.foldl_cons, ih, evaluateZone_frame]
    rfl

/-- The list reads MAP and CFG alone, so that the zones' evaluations before it do not touch it. -/
theorem evaluatePass_hotList (pass endUptime : Nat) (s : State) :
    (evaluatePass pass endUptime s).alm.hotList = hotListOf s := by
  rw [evaluatePass, foldl_evaluateZone_frame]
  rfl

/-! ### The candidates -/

/-- `x` is cell `x.cell` as it stands, and that cell may be listed (R139). -/
def HotEntry.IsCandidate (s : State) (x : HotEntry) : Prop :=
  s.inUse x.cell = true ∧ (s.cell x.cell).value = some x.value ∧ (s.cell x.cell).quality = x.quality ∧
    (s.cell x.cell).passStamp = x.passStamp ∧ x.quality.atLeast 2 = true ∧ s.cfg.parameters.watchThreshold ≤ x.value

theorem hotCandidate_eq_some_iff (s : State) (n : Nat) (c : CellRecord) (x : HotEntry) :
    hotCandidate s (n, c) = some x ↔
      n = x.cell ∧ s.inUse n = true ∧ c.value = some x.value ∧ c.quality = x.quality ∧ c.passStamp = x.passStamp ∧
        c.quality.atLeast 2 = true ∧ s.cfg.parameters.watchThreshold ≤ x.value := by
  obtain ⟨cell, value, quality, passStamp⟩ := x
  cases hv : c.value with
  | none => simp [hotCandidate, hv]
  | some v =>
    simp only [hotCandidate, hv, Option.ite_none_right_eq_some, Bool.and_eq_true, decide_eq_true_eq, Option.some.injEq,
      HotEntry.mk.injEq]
    constructor
    · rintro ⟨⟨⟨inUse, rank⟩, hot⟩, rfl, rfl, rfl, rfl⟩
      exact ⟨rfl, inUse, rfl, rfl, rfl, rank, hot⟩
    · rintro ⟨rfl, inUse, rfl, rfl, rfl, rank, hot⟩
      exact ⟨⟨⟨inUse, rank⟩, hot⟩, rfl, rfl, rfl, rfl⟩

/-- A listed cell reads as its entry. -/
theorem State.cell_of_mem {s : State} (hs : Table.rising s.map.cells = true) {n : Nat} {c : CellRecord}
    (h : (n, c) ∈ s.map.cells) : s.cell n = c := by
  rw [State.cell, Table.get, (Table.find_eq_some_iff hs n c).2 h, Option.getD_some]

/-- A cell that holds a value is listed, for an unlisted one reads Empty. -/
theorem State.mem_cells_of_value {s : State} {n : Nat} {v : Int} (h : (s.cell n).value = some v) :
    (n, s.cell n) ∈ s.map.cells := by
  rw [State.cell, Table.get] at h ⊢
  cases hf : Table.find s.map.cells n with
  | none =>
    rw [hf] at h
    cases h
  | some c => exact Table.find_mem hf

theorem mem_candidates_iff {s : State} (hs : Table.rising s.map.cells = true) (x : HotEntry) :
    x ∈ s.map.cells.filterMap (hotCandidate s) ↔ x.IsCandidate s := by
  simp only [List.mem_filterMap, Prod.exists, hotCandidate_eq_some_iff]
  constructor
  · rintro ⟨_, c, listed, rfl, inUse, value, quality, stamp, rank, hot⟩
    obtain rfl := State.cell_of_mem hs listed
    exact ⟨inUse, value, quality, stamp, quality ▸ rank, hot⟩
  · rintro ⟨inUse, value, quality, stamp, rank, hot⟩
    have listed : (x.cell, s.cell x.cell) ∈ s.map.cells := State.mem_cells_of_value value
    exact ⟨x.cell, s.cell x.cell, listed, rfl, inUse, value, quality, stamp, quality ▸ rank, hot⟩

/-- The candidates stand in the order of their cells. -/
theorem pairwise_candidates {s : State} (hs : Table.rising s.map.cells = true) :
    (s.map.cells.filterMap (hotCandidate s)).Pairwise fun x y => x.cell < y.cell := by
  rw [List.pairwise_filterMap]
  refine ((Table.rising_iff_pairwise _).1 hs).imp fun {a b} hab x hx y hy => ?_
  obtain ⟨hxc, -⟩ := (hotCandidate_eq_some_iff s a.1 a.2 x).1 hx
  obtain ⟨hyc, -⟩ := (hotCandidate_eq_some_iff s b.1 b.2 y).1 hy
  rwa [← hxc, ← hyc]

/-! ### The order -/

theorem HotEntry.before_iff (x y : HotEntry) :
    x.before y = true ↔ y.value < x.value ∨ (x.value = y.value ∧ x.cell < y.cell) := decide_eq_true_iff

theorem HotEntry.before_trans {x y z : HotEntry} (hxy : x.before y = true) (hyz : y.before z = true) :
    x.before z = true := by
  rw [HotEntry.before_iff] at *
  omega

/-- Entries of different cells never tie. -/
theorem HotEntry.before_of_not_before {x y : HotEntry} (hne : x.cell ≠ y.cell) (h : ¬x.before y = true) :
    y.before x = true := by
  rw [HotEntry.before_iff] at *
  omega

/-! ### The sort -/

theorem insertHot_eq_orderedInsert (x : HotEntry) (l : List HotEntry) :
    insertHot x l = l.orderedInsert (fun x y => x.before y = true) x := by
  induction l with
  | nil => rfl
  | cons y l ih => rw [insertHot, List.orderedInsert_cons, ih]

theorem mem_insertHot {x y : HotEntry} {l : List HotEntry} : y ∈ insertHot x l ↔ y = x ∨ y ∈ l := by
  rw [insertHot_eq_orderedInsert, List.mem_orderedInsert]

theorem pairwise_insertHot {x : HotEntry} {l : List HotEntry} (hl : l.Pairwise fun a b => a.before b = true)
    (hx : ∀ y ∈ l, x.cell ≠ y.cell) : (insertHot x l).Pairwise fun a b => a.before b = true := by
  induction l with
  | nil => exact List.pairwise_singleton _ x
  | cons y l ih =>
    obtain ⟨first, rest⟩ := List.pairwise_cons.1 hl
    obtain ⟨hxy, hxl⟩ := List.forall_mem_cons.1 hx
    rw [insertHot]
    split
    case isTrue h =>
      have all_after : ∀ z ∈ y :: l, x.before z = true :=
        List.forall_mem_cons.2 ⟨h, fun z hz => HotEntry.before_trans h (first z hz)⟩
      exact List.pairwise_cons.2 ⟨all_after, hl⟩
    case isFalse h =>
      refine List.pairwise_cons.2 ⟨fun z hz => ?_, ih rest hxl⟩
      obtain rfl | hz := mem_insertHot.1 hz
      · exact HotEntry.before_of_not_before hxy h
      · exact first z hz

/-- All candidates, hottest first: the list of R139 before it is cut to its places. -/
def hotRanking (s : State) : List HotEntry := (s.map.cells.filterMap (hotCandidate s)).foldr insertHot []

theorem hotListOf_eq_take (s : State) : hotListOf s = (hotRanking s).take hotPlaces := rfl

theorem mem_foldr_insertHot {x : HotEntry} {l : List HotEntry} : x ∈ l.foldr insertHot [] ↔ x ∈ l := by
  induction l with
  | nil => rfl
  | cons y l ih => rw [List.foldr_cons, mem_insertHot, ih, List.mem_cons]

theorem pairwise_foldr_insertHot {l : List HotEntry} (h : l.Pairwise fun x y => x.cell < y.cell) :
    (l.foldr insertHot []).Pairwise fun x y => x.before y = true := by
  induction l with
  | nil => exact List.Pairwise.nil
  | cons x l ih =>
    obtain ⟨below, rest⟩ := List.pairwise_cons.1 h
    exact pairwise_insertHot (ih rest) fun y hy => Nat.ne_of_lt (below y (mem_foldr_insertHot.1 hy))

theorem mem_hotRanking_iff {s : State} (hs : TablesCanonical s) (x : HotEntry) :
    x ∈ hotRanking s ↔ x.IsCandidate s := by
  obtain ⟨cellsRise, -⟩ := hs.cells
  exact mem_foldr_insertHot.trans (mem_candidates_iff cellsRise x)

theorem pairwise_hotRanking {s : State} (hs : TablesCanonical s) :
    (hotRanking s).Pairwise fun x y => x.before y = true := by
  obtain ⟨cellsRise, -⟩ := hs.cells
  exact pairwise_foldr_insertHot (pairwise_candidates cellsRise)

/-! ### The cut -/

/-- What a cut of an ordered list leaves out comes after all that it keeps, and then it keeps its full number. -/
theorem length_take_and_rel_of_not_mem_take {α : Type} {R : α → α → Prop} {l : List α} (h : l.Pairwise R) {n : Nat}
    {y : α} (hy : y ∈ l) (hout : y ∉ l.take n) : (l.take n).length = n ∧ ∀ x ∈ l.take n, R x y := by
  have longer : n ≤ l.length := le_of_not_ge fun short => hout (by rwa [List.take_of_length_le short])
  rw [← List.take_append_drop n l] at h hy
  obtain ⟨-, -, kept_before_left⟩ := List.pairwise_append.1 h
  have left : y ∈ l.drop n := (List.mem_append.1 hy).resolve_left hout
  exact ⟨List.length_take_of_le longer, fun x hx => kept_before_left x hx y left⟩

/-- Settles O47: what holds of the whole ranking, read on its first 16 places. -/
theorem hotListHoldsHottest : Obligations.HotListHoldsHottest := by
  unfold Obligations.HotListHoldsHottest
  intro s hs listed candidate precedes
  have ordered : (hotRanking s).Pairwise precedes :=
    (pairwise_hotRanking hs).imp fun {x y} h => (HotEntry.before_iff x y).1 h
  refine ⟨fun pass endUptime => evaluatePass_hotList pass endUptime s, List.length_take_le _ _, fun x hx => ?sound,
    ordered.take, fun y hy hout => ?leftOut⟩
  case sound => exact (mem_hotRanking_iff hs x).1 (List.mem_of_mem_take hx)
  case leftOut => exact length_take_and_rel_of_not_mem_take ordered ((mem_hotRanking_iff hs y).2 hy) hout

end Sys2Proof.Machine

/-! ## The event history: one append (R153)

An append is taken apart by the parts of EVT: the entry at the newest end (steps 1 and 2), the sequence counter
(step 3), and each link's flags and line (steps 4 and 5). -/

namespace Sys2Proof.Machine

/-! ### The entry -/

/-- The entry that an append of `n` adds in `s`. -/
def noteEntry (s : State) (n : Note) : Event where
  sequence := s.evt.nextSequence
  stamp := s.tmb.heaterClock
  clockSet := s.tmb.clockSet
  kind := n.kind
  subject := n.subject
  detail := n.detail

theorem pushEvent_of_lt {history : List Event} (room : history.length < historyPlaces) (entry : Event) :
    pushEvent history entry = history ++ [entry] := by
  rw [pushEvent, if_pos room]

theorem pushEvent_of_le {history : List Event} (full : historyPlaces ≤ history.length) (entry : Event) :
    pushEvent history entry = history.tail ++ [entry] := by
  rw [pushEvent, if_neg full.not_gt, List.drop_one]

/-! ### The history and the counter -/

theorem EventUnit.record_of_exhausted {x : EventUnit} (exhausted : max32 ≤ x.nextSequence) (stamp : Nat)
    (clockSet : Bool) (n : Note) : x.record stamp clockSet n = x := by
  rw [EventUnit.record, if_neg exhausted.not_gt]

@[simp] theorem EventUnit.record_links (x : EventUnit) (stamp : Nat) (clockSet : Bool) (n : Note) :
    (x.record stamp clockSet n).links = x.links := by
  unfold EventUnit.record
  split <;> rfl

/-- Below the last number: the entry at the newest end, and the next number (R153, steps 1 to 3). -/
theorem appendEvent_evt_of_lt {s : State} (below : s.evt.nextSequence < max32) (n : Note) :
    (appendEvent s n).evt =
      { history := pushEvent s.evt.history (noteEntry s n)
        nextSequence := s.evt.nextSequence + 1
        links := s.evt.links.map (EventLink.setFlags n.kind.flag) } := by
  simp only [appendEvent, State.withEvt_evt, EventUnit.record, if_pos below, noteEntry]

/-- In an exhausted history: the flags and the lines alone. -/
theorem appendEvent_evt_of_exhausted {s : State} (exhausted : max32 ≤ s.evt.nextSequence) (n : Note) :
    (appendEvent s n).evt =
      { s.evt with links := s.evt.links.map (EventLink.setFlags n.kind.flag) } := by
  simp only [appendEvent, State.withEvt_evt, EventUnit.record_of_exhausted exhausted]

/-! ### The links -/

/-- Exhausted or not, an append sets the group's flag on every link and judges its line again (R153, steps 4
and 5). -/
@[simp] theorem appendEvent_link (s : State) (n : Note) (l : Link) :
    (appendEvent s n).evt.links.get l = (s.evt.links.get l).setFlags n.kind.flag := by
  simp only [appendEvent, State.withEvt_evt, EventUnit.record_links, PerLink.get_map]

/-- Settles O9, part by part of EVT; the history by whether it is exhausted and whether it is full. -/
theorem appendIsOneAction : Obligations.AppendIsOneAction := by
  unfold Obligations.AppendIsOneAction
  intro s n t entry
  refine ⟨appendEvent_frame s n, fun below => ?numbered, fun exhausted => ?exhausted, appendEvents_nil s,
    appendEvents_cons s n, fun l => ?link⟩
  case numbered =>
    have after : t.evt = _ := appendEvent_evt_of_lt below n
    rw [after]
    exact ⟨rfl, fun room => pushEvent_of_lt room entry, fun full => pushEvent_of_le full.ge entry⟩
  case exhausted =>
    have after : t.evt = _ := appendEvent_evt_of_exhausted exhausted n
    rw [after]
    exact ⟨rfl, rfl⟩
  case link =>
    intro x y
    have after : y = x.setFlags n.kind.flag := appendEvent_link s n l
    rw [after]
    exact ⟨rfl, rfl, rfl, rfl, EventLink.setFlags_attention n.kind.flag x⟩

end Sys2Proof.Machine

/-! ## What a step does to the blocks

`Effect` lists the changes that commands are made of, each with the guard its command has tested; `step_effect` says
that a step is a chain of them. An invariant of the blocks is proved once per change. The changes that no quiet chain
holds (`Effect false`) are those of a link's receiver and queue, the resets, and the begin and end of reads and saves,
but for a read answered: of LNK, `Effect true` says nothing. -/

namespace Sys2Proof.Machine

/-- One change that commands are made of, or a chain of such changes; the loud ones stand in a loud chain alone. -/
inductive Effect : Bool → State → State → Prop
  | refl {loud : Bool} (s : State) : Effect loud s s
  | trans {loud : Bool} {s t u : State} (first : Effect loud s t) (second : Effect loud t u) : Effect loud s u
  | pending {loud : Bool} (s : State) (q : List Instr) : Effect loud s (s.withPending q)
  | links (s : State) (x : LinkController) : Effect true s (s.withLnk x)
  | joined {loud : Bool} (s : State) (commands : List Byte) (starter : Link) (payload : List Byte)
      (others : ∀ c ∈ commands, c = stopMappingCode ∨ c = freezeMapCode ∨ c = freezeAndClearPeaksCode)
      (short : payload.length ≤ 8) : Effect loud s (s.withLnk (answerAllJoined commands starter payload s).lnk)
  /- Start-up, before its events (R184, R185) -/
  | loaded (s : State) (external strap1 strap0 : Bool) : Effect true s (loaded external strap1 strap0 s)
  /- TMB; the pass counter is set by the map states alone -/
  | clock {loud : Bool} (s : State) (x : Timebase) (kept : x.passCounter = s.tmb.passCounter) : Effect loud s (s.withTmb x)
  /- EVT -/
  | append {loud : Bool} (s : State) (n : Note) : Effect loud s (appendEvent s n)
  | eventLink {loud : Bool} (s : State) (l : Link) (f : EventLink → EventLink)
      (judged : ∀ x, x.attention = x.called → (f x).attention = (f x).called) : Effect loud s (onEventLink s l f)
  /- ACQ -/
  | grow {loud : Bool} (s : State) :
      Effect loud s (s.withAcq { s.acq with channels := Table.mapEntries (fun _ c => c.grow) s.acq.channels })
  | poll {loud : Bool} (s : State) (p : Option Poll) : Effect loud s (s.withAcq { s.acq with poll := p })
  | slot {loud : Bool} (s : State) (k : Nat) (x : SlotStatus) : Effect loud s (s.setSlot k x)
  | sample {loud : Bool} (s : State) (n : Nat) (cfg : ChannelConfig) (j : Judgement) (configured : (s.channel n).config = some cfg)
      (inRange : ∀ v b, j = .valid v b → MapValue v) :
      Effect loud s (s.setChannel n
        (({ s.channel n with stats := (s.channel n).stats.count j }).sample s.cfg.parameters s.tmb.uptime
          cfg.maxStep j).1)
  | clearCounters {loud : Bool} (s : State) (n : Nat) : Effect loud s (s.setChannel n { s.channel n with stats := .zero })
  | configure {loud : Bool} (s : State) (n : Nat) (cfg : ChannelConfig) : Effect loud s (s.setChannel n ((s.channel n).configure cfg))
  | remove {loud : Bool} (s : State) (n : Nat) (noPrimary : isPrimary s n = false) (noAlternate : isAlternate s n = false) :
      Effect loud s (s.setChannel n { Channel.unused with stats := (s.channel n).stats })
  | retire {loud : Bool} (s : State) (n : Nat) (used : (s.channel n).state ≠ .unused) :
      Effect loud s (s.setChannel n { s.channel n with state := .retired, cause := none, candidate := none })
  | restore {loud : Bool} (s : State) (n : Nat) (used : (s.channel n).state ≠ .unused) :
      Effect loud s (s.setChannel n
        { s.channel n with state := .acquiring, cause := none, lastGood := none, candidate := none, lostRun := 0 })
  /- SCN -/
  | scanner {loud : Bool} (s : State) (x : Scanner)
      (kept : x = { s.scn with
        sweep := x.sweep, pendingSlot := x.pendingSlot, lastSweep := x.lastSweep, sweepSkips := x.sweepSkips
        interleave := x.interleave })
      (slot : x.sweep = none → x.pendingSlot = none ∨ (s.scn.sweep = none ∧ x.pendingSlot = s.scn.pendingSlot)) :
      Effect loud s (s.withScn x)
  | scan {loud : Bool} (s : State) (sight cell : Nat) (x : ScanRecord) (named : sightCell s sight = some cell) :
      Effect loud s (s.withScn { s.scn with scans := Table.insert s.scn.scans cell x })
  | bias {loud : Bool} (s : State) (k : Nat) (x : CoilBias) : Effect loud s (s.setCoilBias k x)
  | sights {loud : Bool} (s : State) (count first : Nat) (entries : List (Option Nat))
      (inUse : ∀ cell, some cell ∈ entries → s.inUse cell = true) :
      Effect loud s (applyDefineSights count first entries s)
  /- MAP -/
  | mapCounters {loud : Bool} (s : State) (x : MapEngine)
      (kept : x = { s.map with
        stopPending := x.stopPending, passNumber := x.passNumber, establishCount := x.establishCount
        lastCompleted := x.lastCompleted, lastPass := x.lastPass, overruns := x.overruns }) :
      Effect loud s (s.withMap x)
  | startMapping {loud : Bool} (s : State) (x : Nat) (stopped : s.map.mapState = .stopped) (coils : s.cfg.coils ≠ []) :
      Effect loud s
        { s with
          map := { s.map with cells := [], establishCount := 0, mapState := .establishing }
          alm := { s.alm with windows := [] }
          tmb := { s.tmb with passCounter := some x } }
  | passCounter {loud : Bool} (s : State) (x : Nat) (running : s.tmb.passCounter.isSome = true) :
      Effect loud s (s.withTmb { s.tmb with passCounter := some x })
  | newPass {loud : Bool} (s : State) (running : s.tmb.passCounter.isSome = true) (idle : s.map.pass = none) :
      Effect loud s (s.withMap
        { s.map with passNumber := nextPassNumber s.map.passNumber, pass := some (newPass s) })
  | writeTube {loud : Bool} (s : State) (p : Pass) (c : CoilDef) (walking : s.map.pass = some p)
      (coil : s.coil p.coil = some c) : Effect loud s (writeTube p.number p.coil c p.tube s)
  | movePass {loud : Bool} (s : State) (p q : Pass) (walking : s.map.pass = some p)
      (next : (q.coil = p.coil ∧ q.tube = p.tube) ∨ tubeAfter s.geometry p.coil p.tube = some (q.coil, q.tube)) :
      Effect loud s (s.withMap { s.map with pass := some q })
  | endPass {loud : Bool} (s : State) : Effect loud s (s.withMap { s.map with pass := none })
  | establish {loud : Bool} (s : State) (establishing : s.map.mapState = .establishing) :
      Effect loud s (s.withMap { s.map with mapState := .mapping })
  | stop {loud : Bool} (s : State) (walking : Option Pass) (pass : s.map.pass = walking) : Effect loud s (stoppedBlocks walking s)
  | fewerPeaks {loud : Bool} (s : State) (x : Table Peak) (fewer : x.Sublist s.map.peaks) :
      Effect loud s (s.withMap { s.map with peaks := x })
  | fewerExposed {loud : Bool} (s : State) (x : Table Nat) (fewer : x.Sublist s.map.exposure) :
      Effect loud s (s.withMap { s.map with exposure := x })
  | answerRead {loud : Bool} (s : State) (l : Link) (x y : ExposureRead) (running : s.map.reads.get l = some x)
      (whole : y = x.takeAll s ∨ (y = x.take s ∧ y.left = [])) : Effect loud s (answerRead s l y)
  | takeRead (s : State) (l : Link) (x : ExposureRead) (running : s.map.reads.get l = some x) :
      Effect true s (setRead s l (some (x.take s)))
  | readCells (s : State) (l : Link) (reply : ExposureReply) (first n : Nat)
      (inUse : ∀ m ∈ rangeOf first n, m < s.cellTotal) :
      Effect true s (setRead s l
        (some (ExposureRead.take s { reply := reply, left := tubesOf s (rangeOf first n), taken := [] })))
  | readZone (s : State) (l : Link) (reply : ExposureReply) (zone : Nat) (z : Zone) (resume : Nat)
      (defined : s.zone zone = some z) :
      Effect true s (setRead s l
        (some (ExposureRead.take s
          { reply := reply, left := tubesOf s (((zoneCells s z).drop resume).take chunkPlaces), taken := [] })))
  /- ALM -/
  | evaluate {loud : Bool} (s : State) (pass endUptime : Nat) (established : s.established = true) :
      Effect loud s (evaluatePass pass endUptime s)
  | acknowledge {loud : Bool} (s : State) (l : Link) (n : Nat) (z : Zone) (raised : (s.alarm n).state ≠ .normal) :
      Effect loud s (s.withAlm
        { s.alm with records := Table.put .reset s.alm.records n (ackRecord z.ackPolicy l (s.alarm n)).1 })
  | defineZone {loud : Bool} (s : State) (n : Nat) (z : Zone) (c : CoilDef) (number : n ≤ 31) (coil : s.coil z.coil = some c)
      (tubes : z.lowTube ≤ z.highTube ∧ z.highTube < c.tubes)
      (elevations : z.lowElevation ≤ z.highElevation ∧ z.highElevation < c.elevations) :
      Effect loud s (applyZone n (some z) s)
  | deleteZone {loud : Bool} (s : State) (n : Nat) : Effect loud s (applyZone n none s)
  /- FRZ -/
  | freeze {loud : Bool} (s : State) (f : Option Freeze) : Effect loud s (s.withFrz { s.frz with freeze := f })
  | copyCell {loud : Bool} (s : State) (clearing : Bool) (n : Nat) : Effect loud s (copyCell clearing s n)
  | fillFrozen {loud : Bool} (s : State) (f : Freeze) : Effect loud s (fillFrozen f s)
  /- CFG -/
  | settings {loud : Bool} (s : State) (x : ConfigUnit)
      (kept : x = { s.cfg with
        parameters := x.parameters, rightsA := x.rightsA, rightsB := x.rightsB, generation := x.generation
        unsavedEdits := x.unsavedEdits, autoStart := x.autoStart }) : Effect loud s (s.withCfg x)
  | editCoil {loud : Bool} (s : State) (k : Nat) (entry : Option CoilDef) (stopped : s.map.mapState = .stopped) (number : k ≤ 7)
      (reads : ∀ l, s.map.reads.get l = none)
      (size : ∀ c, entry = some c → 1 ≤ c.tubes ∧ c.tubes ≤ 64 ∧ 1 ≤ c.elevations ∧ c.elevations ≤ 8)
      (room : ∀ c, entry = some c → Machine.cellTotal (geometryOf (Table.insert s.cfg.coils k c)) ≤ 2048) :
      Effect loud s (applyCoilEdit k entry s)
  | assignPrimary {loud : Bool} (s : State) (cell channel : Nat) (inUse : s.inUse cell = true)
      (used : (s.channel channel).state ≠ .unused) :
      Effect loud s (releaseDependents (withPrimaries s (movePrimary s.cfg.primaries cell channel)))
  | releasePrimary {loud : Bool} (s : State) (cell : Nat) :
      Effect loud s (releaseDependents (withPrimaries s (Table.erase s.cfg.primaries cell)))
  | assignAlternate {loud : Bool} (s : State) (cell channel : Nat) (offset : Int) (inUse : s.inUse cell = true)
      (primary : primaryOutOfService s cell = true) (used : (s.channel channel).state ≠ .unused)
      (free : isAlternate s channel = false) (elsewhere : primaryElsewhereOnTube s cell channel = true) :
      Effect loud s (s.withCfg
        { s.cfg with alternates := Table.insert s.cfg.alternates cell { channel := channel, offset := offset } })
  | releaseAlternate {loud : Bool} (s : State) (cell : Nat) :
      Effect loud s (s.withCfg { s.cfg with alternates := Table.erase s.cfg.alternates cell })
  /- NVS -/
  | saveConfig (s : State) (l : Option Link) :
      Effect true s (withSave s (some { capture := .config (captureConfig s), requester := l }))
  | saveExposure (s : State) (l : Option Link) :
      Effect true s (withSave s (some { capture := .exposure (captureExposure s), requester := l }))
  | saveWaits {loud : Bool} (s : State) (b : Bool) : Effect loud s (s.withNvs { s.nvs with waiting := b })
  | saveEnds (s : State) (agrees : Bool) (x : Save) (flying : s.nvs.save = some x) :
      Effect true s (s.withNvs { writeImage agrees x.capture s.nvs with save := none })

namespace Effect

variable {loud : Bool} {s t u : State}

/-! ### Chains -/

theorem appends (s : State) (ns : List Note) : Effect loud s (appendEvents s ns) := by
  induction ns generalizing s with
  | nil => exact refl s
  | cons n ns ih => exact (append s n).trans (ih _)

theorem foldl {α : Type} {f : State → α → State} (hf : ∀ s x, Effect loud s (f s x)) (xs : List α) (s : State) :
    Effect loud s (xs.foldl f s) := by
  induction xs generalizing s with
  | nil => exact refl s
  | cons x xs ih => exact (hf s x).trans (ih _)

theorem onLink (s : State) (l : Link) (f : LinkState → LinkState) : Effect true s (Machine.onLink s l f) := links s _

theorem answerAllJoined (s : State) {commands : List Byte} (starter : Link) {payload : List Byte}
    (others : ∀ c ∈ commands, c = stopMappingCode ∨ c = freezeMapCode ∨ c = freezeAndClearPeaksCode)
    (short : payload.length ≤ 8) : Effect loud s (Machine.answerAllJoined commands starter payload s) := by
  rw [answerAllJoined_frame]
  exact joined s commands starter payload others short

theorem startUp (external strap1 strap0 : Bool) (s : State) : Effect true s (Machine.startUp external strap1 strap0 s) :=
  (loaded s external strap1 strap0).trans (appends _ _)

/-! ### Reads of exposure -/

theorem takeTubes (s : State) : Effect true s (Machine.takeTubes s) := by
  refine foldl (fun s l => ?_) _ s
  rcases takeTube_cases s l with ⟨-, h⟩ | ⟨x, hx, ⟨-, h⟩ | ⟨last, h⟩⟩ <;> rw [h]
  · exact refl s
  · exact takeRead s l x hx
  · exact answerRead s l x _ hx (.inr ⟨rfl, last⟩)

theorem finishReads (s : State) : Effect loud s (Machine.finishReads s) := by
  refine foldl (fun s l => ?_) _ s
  rcases finishRead_cases s l with ⟨-, h⟩ | ⟨x, hx, h⟩ <;> rw [h]
  · exact refl s
  · exact answerRead s l x _ hx (.inl rfl)

/-- What a coil edit does to the reads first changes MAP's reads and LNK alone. -/
theorem finishReads_frame (s : State) :
    let t := Machine.finishReads s
    t = { s with map := { s.map with reads := t.map.reads }, lnk := t.lnk } := by
  have one (s : State) (l : Link) :
      finishRead s l = { s with map := { s.map with reads := (finishRead s l).map.reads }, lnk := (finishRead s l).lnk } := by
    obtain ⟨blocks, map, -, -, -⟩ := finishRead_frame s l
    rw [← map]
    exact blocks
  simp only [Machine.finishReads, List.foldl_cons, List.foldl_nil]
  rw [one _ .e, one _ .b, one _ .a]

/-- A read begun is answered at once, or stays with a tube to take. -/
theorem beginRead {l : Link} {x : ExposureRead} (h : Effect true s (setRead s l (some (x.take s)))) :
    Effect true s (Machine.beginRead l x s).1 := by
  unfold Machine.beginRead
  dsimp only
  split
  · exact refl s
  · exact h

/-! ### Acquisition -/

theorem pollFrom (s : State) (first : Nat) : Effect loud s (Machine.pollFrom s first) := poll s _

theorem sampleExpires (s : State) : Effect loud s (Machine.sampleExpires s) := by
  unfold Machine.sampleExpires
  have aged : Effect loud s _ := (clock s { s.tmb with sampleCounter := s.cfg.parameters.samplePeriod } rfl).trans (grow _)
  dsimp only
  split
  · exact aged
  · exact aged.trans (pollFrom _ 0)

theorem updateSlot (slot : Nat) (outcome : PollOutcome) (drew : Bool) (reply : Option ModuleReply) (s : State) :
    Effect loud s (Machine.updateSlot slot outcome drew reply s) := by
  unfold Machine.updateSlot
  dsimp only
  split
  · exact (Effect.slot s slot _).trans (append _ _)
  · exact Effect.slot s slot _


theorem mapValue_clampMap (v : Int) : MapValue (clampMap v) := by
  unfold MapValue clampMap clampInt mapLow mapHigh
  split
  · omega
  · split <;> omega

/-- An input's judgement carries a value of the map range (R28). -/
theorem judgeInput_inRange {cfg : ChannelConfig} {raw : Int} {isOpen : Bool} {v : Int} {b : Bool}
    (h : judgeInput cfg raw isOpen = .valid v b) : MapValue v := by
  unfold judgeInput at h
  split at h
  · cases h
  · split at h
    · cases h
    · cases h
      exact mapValue_clampMap _

theorem updateInput (slot : Nat) (reply : Option ModuleReply) (s : State) (input : Nat) :
    Effect loud s (Machine.updateInput slot reply s input) := by
  unfold Machine.updateInput
  dsimp only
  split
  case h_1 => exact refl s
  case h_2 cfg configured =>
    refine (sample s _ cfg _ configured fun v b h => ?_).trans (appends _ _)
    split at h
    · cases h
    · exact judgeInput_inRange h

theorem endPoll (slot : Nat) (outcome : PollOutcome) (drew : Bool) (reply : Option ModuleReply) (s : State) :
    Effect loud s (Machine.endPoll slot outcome drew reply s) :=
  ((updateSlot slot outcome drew reply s).trans (foldl (updateInput slot _) _ _)).trans (pollFrom _ _)

theorem badFrame (p : Poll) (s : State) : Effect loud s (Machine.badFrame p s) := by
  unfold Machine.badFrame
  split
  · exact endPoll ..
  · exact poll s _

theorem receiveReply (bytes : List Byte) (s : State) : Effect loud s (Machine.receiveReply bytes s) := by
  unfold Machine.receiveReply
  split
  · exact refl s
  · split
    · exact endPoll ..
    · exact badFrame ..

theorem replyTimeEnds (came : Bool) (s : State) : Effect loud s (Machine.replyTimeEnds came s) := by
  unfold Machine.replyTimeEnds
  split
  · exact refl s
  · split
    · exact badFrame ..
    · exact endPoll ..

/-! ### Sweeps -/

/-- SCN with a sweep closed (R54); the pending slot stands. -/
def closedScanner (x : Sweep) (outcome : SweepOutcome) (s : State) : Scanner :=
  { s.scn with
    sweep := none
    lastSweep := some
      { kind := x.kind, outcome := outcome, taken := x.taken, discarded := x.discarded, missed := x.missed
        lastFault := x.lastFault, endStamp := s.tmb.heaterClock, clockSet := s.tmb.clockSet } }

theorem viewStep (x : Sweep) (n : Nat) (s : State) : Effect loud s (Machine.viewStep x n s) :=
  scanner s _ rfl fun h => nomatch h

/-- A sweep closed with the pending slot empty before or emptied after (R54, R56). -/
theorem closeSweep_emptied (x : Sweep) (outcome : SweepOutcome) (s : State) :
    Effect loud s ((closeSweep x outcome s).withScn { (closeSweep x outcome s).scn with pendingSlot := none }) :=
  (scanner s { closedScanner x outcome s with pendingSlot := none } rfl fun _ => .inl rfl).trans (append _ _)

theorem closeSweep (x : Sweep) (outcome : SweepOutcome) (s : State) (h : s.scn.pendingSlot = none ∨ s.scn.sweep = none) :
    Effect loud s (Machine.closeSweep x outcome s) :=
  (scanner s (closedScanner x outcome s) rfl fun _ => h.imp id fun h => ⟨h, rfl⟩).trans (append _ _)

theorem startSweep (kind : SweepKind) (s : State) (h : s.scn.pendingSlot = none ∨ s.scn.sweep = none) :
    Effect loud s (Machine.startSweep kind s) := by
  unfold Machine.startSweep
  split
  · exact viewStep _ _ s
  · exact closeSweep _ _ s h

theorem endSweep (x : Sweep) (outcome : SweepOutcome) (s : State) : Effect loud s (Machine.endSweep x outcome s) := by
  unfold Machine.endSweep
  dsimp only
  split
  case h_1 kind _ => exact (closeSweep_emptied x outcome s).trans (startSweep kind _ (.inl rfl))
  case h_2 h => exact closeSweep x outcome s (.inl h)

theorem advanceSweep (x : Sweep) (s : State) : Effect loud s (Machine.advanceSweep x s) := by
  unfold Machine.advanceSweep
  split
  · exact viewStep _ _ s
  · exact endSweep _ _ s

theorem cancelSweepNow (s : State) : Effect loud s (Machine.cancelSweepNow s) := by
  unfold Machine.cancelSweepNow
  split
  · exact refl s
  · exact closeSweep_emptied _ _ s

theorem attemptFails (x : Sweep) (s : State) : Effect loud s (Machine.attemptFails x s) := by
  unfold Machine.attemptFails
  split
  · exact scanner s _ rfl fun h => nomatch h
  · dsimp only
    split
    · exact endSweep _ _ s
    · exact advanceSweep _ s

theorem headFaultArrives (intact : Bool) (code : Nat) (s : State) :
    Effect loud s (Machine.headFaultArrives intact code s) := by
  unfold Machine.headFaultArrives
  split
  · exact refl s
  · split
    · exact attemptFails _ s
    · exact refl s

theorem replyTimeoutEnds (s : State) : Effect loud s (Machine.replyTimeoutEnds s) := by
  unfold Machine.replyTimeoutEnds
  split
  · exact refl s
  · exact attemptFails _ s

theorem compareBias (k cell sight : Nat) (c temperature : Int) (s : State) :
    Effect loud s (Machine.compareBias k cell sight c temperature s) := by
  unfold Machine.compareBias
  dsimp only
  split
  · exact (bias s k _).trans (append _ _)
  · exact bias s k _

theorem acceptReading {cell sight : Nat} (temperature : Int) (signal : Nat) {s : State}
    (named : sightCell s sight = some cell) : Effect loud s (Machine.acceptReading cell sight temperature signal s) := by
  unfold Machine.acceptReading
  dsimp only
  split
  · exact (scan s sight cell _ named).trans (compareBias ..)
  · exact scan s sight cell _ named

theorem goodReading (x : Sweep) (sight : Nat) (temperature : Int) (signal : Nat) (s : State) :
    Effect loud s (Machine.goodReading x sight temperature signal s) := by
  unfold Machine.goodReading
  dsimp only
  split
  case h_1 => exact advanceSweep _ s
  case h_2 cell named =>
    split
    · exact advanceSweep _ s
    · exact (acceptReading temperature signal named).trans (advanceSweep _ _)

theorem readingArrives (intact : Bool) (sight : Nat) (temperature : Int) (signal : Nat) (s : State) :
    Effect loud s (Machine.readingArrives intact sight temperature signal s) := by
  unfold Machine.readingArrives
  split
  · exact refl s
  · split
    · exact refl s
    · split
      · exact goodReading ..
      · exact attemptFails _ s

theorem setPendingSlot (kind : SweepKind) {s : State} {x : Sweep} (sweeping : s.scn.sweep = some x) :
    Effect loud s (Machine.setPendingSlot kind s) :=
  scanner s _ rfl fun h => nomatch sweeping.symm.trans h

theorem handleSweepRequest (kind : SweepKind) (s : State) : Effect loud s (Machine.handleSweepRequest kind s).1 := by
  unfold Machine.handleSweepRequest
  split
  case h_1 idle => exact startSweep _ s (.inr idle)
  case h_2 sweeping _ => exact setPendingSlot _ sweeping
  case h_3 => exact refl s
  case h_4 sweeping _ => exact setPendingSlot .full sweeping
  case h_5 => split <;> exact refl s

theorem sweepExpires (s : State) : Effect loud s (Machine.sweepExpires s) := by
  unfold Machine.sweepExpires
  split
  · exact refl s
  · refine (clock s { s.tmb with sweepCounter := some s.cfg.parameters.sweepPeriod } rfl).trans ?_
    dsimp only
    split
    · exact scanner _ _ rfl fun h => .inr ⟨h, rfl⟩
    · exact handleSweepRequest ..

/-! ### Passes -/

theorem stopTakesEffect {s : State} (setter : Link) {walking : Option Pass} (h : s.map.pass = walking) :
    Effect loud s (Machine.stopTakesEffect setter walking s) := by
  rw [stopTakesEffect_eq]
  exact ((stop s walking h).trans (appends _ _)).trans (answerAllJoined _ _ (by simp) (Nat.zero_le _))

theorem abandonPass (p : Pass) (reason : AbandonReason) (s : State) : Effect loud s (Machine.abandonPass p reason s) :=
  ((endPass s).trans (mapCounters _
    { s.map with pass := none, establishCount := 0, lastPass := some (lastPassOf s p (some reason)) } rfl)).trans
    (append _ _)

theorem overrun (p : Pass) (s : State) : Effect loud s (Machine.overrun p s) := by
  unfold Machine.overrun
  split
  · exact refl s
  · exact (mapCounters s { s.map with overruns := raise max16 s.map.overruns } rfl).trans (append _ _)

theorem passExpires (s : State) : Effect loud s (Machine.passExpires s) := by
  unfold Machine.passExpires
  split
  case h_1 => exact refl s
  case h_2 running =>
    refine (passCounter s s.cfg.parameters.passPeriod (by simp [running])).trans ?_
    dsimp only
    split
    · exact overrun ..
    case h_2 idle => exact newPass _ rfl idle

theorem completePass {p q : Pass} {s : State} (walking : s.map.pass = some p) (coil : q.coil = p.coil)
    (tube : q.tube = p.tube) : Effect loud s (Machine.completePass q s) := by
  unfold Machine.completePass
  have completed (count : Nat) : Effect loud s (s.withMap
      { s.map with
        pass := some { q with phase := .handingOff }, lastCompleted := q.number
        lastPass := some (lastPassOf s q none), establishCount := count }) :=
    (movePass s p { q with phase := .handingOff } walking (.inl ⟨coil, tube⟩)).trans (mapCounters _ _ rfl)
  dsimp only
  split
  case isTrue h =>
    obtain ⟨establishing, -⟩ := h
    exact ((completed _).trans (establish _ establishing)).trans (append _ _)
  case isFalse => exact completed _

theorem foldl_writeCell_frame (c : CoilDef) (pass : Nat) (xs : List (Nat × CellRecord)) (s : State) :
    let t := xs.foldl (writeCell c pass) s
    t = s.withMap
      { s.map with cells := t.map.cells, peaks := t.map.peaks, exposure := t.map.exposure } := by
  induction xs generalizing s with
  | nil => rfl
  | cons x xs ih =>
    rw [List.foldl_cons, ih]
    rfl

/-- A tube write changes the cells, the peaks and the accumulators alone (R74). -/
theorem writeTube_frame (pass k : Nat) (c : CoilDef) (tube : Nat) (s : State) :
    let t := Machine.writeTube pass k c tube s
    t = s.withMap
      { s.map with cells := t.map.cells, peaks := t.map.peaks, exposure := t.map.exposure } :=
  foldl_writeCell_frame ..

theorem walkTube {p : Pass} {c : CoilDef} {s : State} (walking : s.map.pass = some p)
    (coil : s.coil p.coil = some c) : Effect loud s (Machine.walkTube p c s) := by
  unfold Machine.walkTube
  have frame := writeTube_frame p.number p.coil c p.tube s
  have still : (Machine.writeTube p.number p.coil c p.tube s).map.pass = some p := by
    rw [frame]
    exact walking
  have geometry : (Machine.writeTube p.number p.coil c p.tube s).geometry = s.geometry := by rw [frame]; rfl
  refine (writeTube s p c walking coil).trans ?_
  dsimp only
  split
  case h_1 next h => exact movePass _ p _ still (.inr (by rw [geometry, h]))
  case h_2 => exact completePass still rfl rfl

theorem tubeSteps (s : State) : Effect loud s (Machine.tubeSteps s) := by
  unfold Machine.tubeSteps
  split
  case h_1 => exact refl s
  case h_2 p walking =>
    split
    · exact refl s
    split
    · exact stopTakesEffect _ walking
    split
    · exact abandonPass ..
    split
    case h_1 c coil => exact walkTube walking coil
    case h_2 => exact refl s

theorem handsOff (s : State) : Effect loud s (Machine.handsOff s) := by
  unfold Machine.handsOff
  have judged (n : Nat) : Effect loud s (if s.established then evaluatePass n (handedUptime s) s else s) := by
    split
    case isTrue h => exact evaluate s n _ h
    case isFalse => exact refl s
  split
  · exact refl s
  split
  · exact refl s
  dsimp only
  split
  · exact ((judged _).trans (endPass _)).trans (stopTakesEffect _ rfl)
  · exact (judged _).trans (endPass _)

/-! ### Freezes -/

theorem freezeCompletes (s : State) : Effect loud s (Machine.freezeCompletes s) := by
  unfold Machine.freezeCompletes
  split
  · exact refl s
  · split
    · exact (fillFrozen s _).trans (answerAllJoined _ _ (by simp [freezeCommands]) (by simp [completionPayload, freezePayload, enc32]))
    · exact refl s

theorem tubeCopies (s : State) : Effect loud s (Machine.tubeCopies s) := by
  unfold Machine.tubeCopies
  split
  · exact refl s
  split
  · exact refl s
  split
  · exact refl s
  · exact (foldl (fun s n => copyCell s _ n) _ s).trans (freeze _ _)

theorem startFreeze (l : Link) (clearing : Bool) (s : State) : Effect loud s (Machine.startFreeze l clearing s).1 := by
  unfold Machine.startFreeze
  split
  · exact freeze s _
  · exact fillFrozen s _

/-! ### Saves -/

theorem saveAnswer (agrees : Bool) (x : Save) (s : State) : Effect true s (Machine.saveAnswer agrees x s) := by
  unfold Machine.saveAnswer
  split
  · exact refl s
  · split <;> exact onLink s _ _

theorem startWaiting (s : State) : Effect true s (Machine.startWaiting s) := by
  unfold Machine.startWaiting
  split
  · exact (saveWaits s false).trans (saveExposure _ none)
  · exact refl s

theorem saveEnd (agrees : Bool) (s : State) : Effect true s (Machine.saveEnds agrees s) := by
  unfold Machine.saveEnds
  split
  case h_1 => exact refl s
  case h_2 x flying =>
    exact (((saveEnds s agrees x flying).trans (settings _ _ rfl)).trans (append _ _)).trans
      ((saveAnswer ..).trans (startWaiting _))

theorem exposureSaveExpires (s : State) : Effect true s (Machine.exposureSaveExpires s) := by
  unfold Machine.exposureSaveExpires
  split
  · exact refl s
  · refine (clock s { s.tmb with exposureSaveCounter := some s.cfg.parameters.exposureSavePeriod } rfl).trans ?_
    dsimp only
    split
    · exact saveWaits _ true
    · exact saveExposure _ none

/-! ### Edits -/

theorem edit {l : Link} {expected : Nat} {refusal : State → Option Result} {clamped : State → Bool}
    {apply : State → State} {events : State → List Note} {s : State} (h : refusal s = none → Effect loud s (apply s)) :
    Effect loud s (Machine.edit l expected refusal clamped apply events s).1 := by
  rcases edit_cases l expected refusal clamped apply events s with ⟨r, h'⟩ | ⟨passed, r, p, h'⟩ <;> rw [h']
  · exact refl s
  · exact (h passed).trans (((settings _ _ rfl).trans (append _ _)).trans (appends _ _))

theorem ownDefineCoil (l : Link) (expected k tubes elevations design step : Nat) (s : State) :
    Effect loud s (Machine.ownDefineCoil l expected k tubes elevations design step s).1 := by
  refine edit fun passed => ?_
  simp only [defineCoilRefusal, firstRefusal_eq_none, List.forall_mem_cons, decide_eq_false_iff_not, not_or, not_not,
    not_lt] at passed
  obtain ⟨stopped, number, ⟨tubes, elevations⟩, -, -, room, -⟩ := passed
  have frame := finishReads_frame s
  refine (finishReads s).trans (editCoil _ k _ ?_ number (finishReads_none s) ?_ ?_)
  · rw [frame]; exact stopped
  · rintro _ ⟨⟩
    exact ⟨tubes.1, tubes.2, elevations.1, elevations.2⟩
  · rintro _ ⟨⟩
    rw [frame]; exact room

theorem ownDeleteCoil (l : Link) (expected k : Nat) (s : State) :
    Effect loud s (Machine.ownDeleteCoil l expected k s).1 := by
  refine edit fun passed => ?_
  obtain ⟨stopped, number, -⟩ : s.map.mapState = .stopped ∧ k ≤ 7 ∧ _ := by
    simpa [firstRefusal_eq_none] using passed
  have frame := finishReads_frame s
  refine (finishReads s).trans (editCoil _ k _ ?_ number (finishReads_none s) nofun nofun)
  rw [frame]; exact stopped

theorem ownDefineChannel (l : Link) (expected n : Nat) (form : DefineChannelForm) (s : State) :
    Effect loud s (Machine.ownDefineChannel l expected n form s).1 := by
  refine edit fun passed => ?_
  unfold applyDefineChannel
  cases form with
  | configuration offset trim maxStep =>
    dsimp only
    split
    · exact configure s n _
    · exact (Effect.slot s _ _).trans (configure (s.setSlot (n / slotInputs) .reset) n _)
  | remove =>
    obtain ⟨-, -, noPrimary, noAlternate⟩ : n < channelCount ∧ (s.channel n).state ≠ .unused ∧
        isPrimary s n = false ∧ isAlternate s n = false := by
      simpa [defineChannelRefusal, firstRefusal_eq_none] using passed
    exact remove s n noPrimary noAlternate

theorem ownRetireChannel (l : Link) (expected n : Nat) (s : State) :
    Effect loud s (Machine.ownRetireChannel l expected n s).1 := by
  refine edit fun passed => ?_
  obtain ⟨-, used⟩ : n < channelCount ∧ (s.channel n).state ≠ .unused := by
    simpa [firstRefusal_eq_none] using passed
  exact retire s n used

theorem ownReturnToService (l : Link) (expected n : Nat) (s : State) :
    Effect loud s (Machine.ownReturnToService l expected n s).1 := by
  refine edit fun passed => ?_
  obtain ⟨-, used, -⟩ : n < channelCount ∧ (s.channel n).state ≠ .unused ∧ _ := by
    simpa [firstRefusal_eq_none] using passed
  exact restore s n used

theorem ownAssignAnchor (l : Link) (expected cell n : Nat) (s : State) :
    Effect loud s (Machine.ownAssignAnchor l expected cell n s).1 := by
  refine edit fun passed => ?_
  obtain ⟨-, inUse, -, used⟩ : cell ≤ 2047 ∧ s.inUse cell = true ∧ n < channelCount ∧
      (s.channel n).state ≠ .unused := by
    simpa [firstRefusal_eq_none, cellChecks] using passed
  exact assignPrimary s cell n inUse used

theorem ownReleaseAnchor (l : Link) (expected cell : Nat) (s : State) :
    Effect loud s (Machine.ownReleaseAnchor l expected cell s).1 := edit fun _ => releasePrimary s cell

theorem ownAssignAlternate (l : Link) (expected cell n : Nat) (offset : Int) (s : State) :
    Effect loud s (Machine.ownAssignAlternate l expected cell n offset s).1 := by
  refine edit fun passed => ?_
  obtain ⟨-, inUse, primary, ⟨used, -⟩, free, elsewhere⟩ : (cell ≤ 2047 ∧ n < channelCount) ∧ s.inUse cell = true ∧
      primaryOutOfService s cell = true ∧ ((s.channel n).state ≠ .unused ∧ _) ∧ isAlternate s n = false ∧
      primaryElsewhereOnTube s cell n = true := by
    simpa [firstRefusal_eq_none] using passed
  exact assignAlternate s cell n _ inUse primary used free elsewhere

theorem ownReleaseAlternate (l : Link) (expected cell : Nat) (s : State) :
    Effect loud s (Machine.ownReleaseAlternate l expected cell s).1 := edit fun _ => releaseAlternate s cell

theorem ownDefineSights (l : Link) (expected count first : Nat) (entries : List (Option Nat)) (s : State) :
    Effect loud s (Machine.ownDefineSights l expected count first entries s).1 := by
  refine edit fun passed => sights s count first entries fun cell hcell => ?_
  simp only [defineSightsRefusal, firstRefusal_eq_none, List.forall_mem_cons, List.any_eq_false] at passed
  obtain ⟨-, -, -, -, inUse, -⟩ := passed
  simpa using inUse _ hcell

theorem ownSetInterleave (l : Link) (expected factor : Nat) (s : State) :
    Effect loud s (Machine.ownSetInterleave l expected factor s).1 :=
  edit fun _ => scanner s _ rfl fun h => .inr ⟨h, rfl⟩

theorem ownDefineZone (l : Link) (expected n : Nat) (x : ZoneArgs) (s : State) :
    Effect loud s (Machine.ownDefineZone l expected n x s).1 := by
  refine edit fun passed => ?_
  unfold applyDefineZone
  split
  case h_1 mode policy _ _ =>
    simp only [defineZoneRefusal, firstRefusal_eq_none, List.forall_mem_cons, decide_eq_false_iff_not,
      Option.isNone_eq_false_iff, Option.isSome_iff_exists] at passed
    obtain ⟨number, ⟨c, coil⟩, tubes, elevations, -⟩ := passed
    simp only [coil, Option.any_some, rangeOutside, decide_eq_false_iff_not] at tubes elevations
    exact defineZone s n (zoneOf x mode policy) c (by omega) coil
      ⟨show x.lowTube ≤ x.highTube by omega, show x.highTube < c.tubes by omega⟩
      ⟨show x.lowElevation ≤ x.highElevation by omega, show x.highElevation < c.elevations by omega⟩
  case h_2 => exact refl s

theorem ownDeleteZone (l : Link) (expected n : Nat) (s : State) :
    Effect loud s (Machine.ownDeleteZone l expected n s).1 := edit fun _ => deleteZone s n

theorem ownSetParameters (l : Link) (expected : Nat) (pairs : List ParameterPair) (s : State) :
    Effect loud s (Machine.ownSetParameters l expected pairs s).1 :=
  edit fun _ => (settings s _ rfl).trans (clock _ _ rfl)

theorem ownSetEditRights (l : Link) (expected : Nat) (a b : Bool) (s : State) :
    Effect loud s (Machine.ownSetEditRights l expected a b s).1 := edit fun _ => settings s _ rfl

theorem ownSetAutoStart (l : Link) (expected : Nat) (on : Bool) (s : State) :
    Effect loud s (Machine.ownSetAutoStart l expected on s).1 := edit fun _ => settings s _ rfl

theorem malformed (l : Link) (code : Byte) (payload : List Byte) (s : State) :
    Effect loud s (Machine.malformed l code payload s).1 := by
  unfold Machine.malformed
  split
  · exact edit nofun
  · exact refl s

/-! ### Reads, open and operating commands -/

theorem ownReadStatus (l : Link) (s : State) : Effect loud s (Machine.ownReadStatus l s).1 := by
  unfold Machine.ownReadStatus
  dsimp only
  split
  · exact eventLink s l _ fun _ _ => rfl
  · exact refl s

theorem ownReadChannelStatistics (l : Link) (first count : Nat) (clear : Bool) (s : State) :
    Effect loud s (Machine.ownReadChannelStatistics l first count clear s).1 := by
  unfold Machine.ownReadChannelStatistics
  split
  · exact refl s
  split
  · exact refl s
  dsimp only
  split
  · exact foldl clearCounters _ s
  · exact refl s

theorem ownReadBias (l : Link) (clear : Bool) (s : State) : Effect loud s (Machine.ownReadBias l clear s).1 := by
  unfold Machine.ownReadBias
  split
  · exact refl s
  dsimp only
  split
  · exact foldl (fun s k => bias s k _) _ s
  · exact refl s

theorem cellRange_inUse {first count n : Nat} {s : State} (h : cellRange first count s = .ok n) :
    ∀ m ∈ rangeOf first n, m < s.cellTotal := by
  unfold cellRange State.cellRefusal State.inUse at h
  by_cases inUse : first < s.cellTotal
  · intro m hm
    grind [rangeOf, rangeCount]
  · grind

theorem ownReadExposure (l : Link) (first count : Nat) (s : State) :
    Effect true s (Machine.ownReadExposure l first count s).1 := by
  unfold Machine.ownReadExposure
  split
  · exact refl s
  case h_2 n covered => exact beginRead (readCells s l _ first n (cellRange_inUse covered))

theorem ownZoneExposureTotal (l : Link) (zone resume : Nat) (s : State) :
    Effect true s (Machine.ownZoneExposureTotal l zone resume s).1 := by
  unfold Machine.ownZoneExposureTotal
  split
  · exact refl s
  split
  · exact refl s
  case h_2 z defined =>
    dsimp only
    split
    · exact refl s
    · exact beginRead (readZone s l _ zone z resume defined)

theorem ownReadEvents (l : Link) (count : Nat) (s : State) : Effect loud s (Machine.ownReadEvents l count s).1 := by
  unfold Machine.ownReadEvents
  split
  · exact refl s
  · refine eventLink s l _ fun x h => ?_
    split
    · rfl
    · exact h

theorem ownRequestSweep (kind : SweepKindArg) (s : State) : Effect loud s (Machine.ownRequestSweep kind s).1 := by
  unfold Machine.ownRequestSweep
  dsimp only
  split
  · split
    · exact refl s
    · exact handleSweepRequest ..
  · split
    · exact refl s
    · exact handleSweepRequest ..
  · exact refl s

theorem ownFreezeMap (l : Link) (s : State) : Effect loud s (Machine.ownFreezeMap l s).1 := by
  unfold Machine.ownFreezeMap
  split
  · exact startFreeze l false s
  · exact refl s

theorem ownFreezeAndClearPeaks (l : Link) (s : State) : Effect loud s (Machine.ownFreezeAndClearPeaks l s).1 := by
  unfold Machine.ownFreezeAndClearPeaks
  split
  · exact startFreeze l true s
  · split <;> exact refl s

theorem ownClearFlags (l : Link) (flags : BitVec 16) (s : State) : Effect loud s (Machine.ownClearFlags l flags s).1 := by
  unfold Machine.ownClearFlags
  split
  · exact refl s
  · exact eventLink s l _ fun _ _ => rfl

theorem ownSetMask (l : Link) (mask : BitVec 16) (autoClear : Bool) (s : State) :
    Effect loud s (Machine.ownSetMask l mask autoClear s).1 := by
  unfold Machine.ownSetMask
  split
  · exact refl s
  · exact eventLink s l _ fun _ _ => rfl

theorem takeAck {l : Link} {n : Nat} {z : Zone} {s : State} (raised : (s.alarm n).state ≠ .normal) :
    Effect loud s (Machine.takeAck l n z s) := by
  unfold Machine.takeAck
  dsimp only
  split
  · exact (acknowledge s l n z raised).trans (append _ _)
  · exact acknowledge s l n z raised

theorem ownAcknowledge (l : Link) (zone occurrence : Nat) (s : State) :
    Effect loud s (Machine.ownAcknowledge l zone occurrence s).1 := by
  unfold Machine.ownAcknowledge
  split
  · exact refl s
  split
  · exact refl s
  dsimp only
  split
  · exact refl s
  case isFalse raised =>
    split
    · exact refl s
    · exact takeAck fun h => raised (.inr h)

theorem ownStartMapping (s : State) : Effect loud s (Machine.ownStartMapping s).1 := by
  unfold Machine.ownStartMapping
  split
  · exact refl s
  case isFalse stopped =>
    split
    · exact refl s
    case isFalse coils => exact startMapping s _ (not_not.1 stopped) coils

theorem ownStopMapping (l : Link) (s : State) : Effect loud s (Machine.ownStopMapping l s).1 := by
  unfold Machine.ownStopMapping
  split
  · exact refl s
  split
  case isTrue idle =>
    show Effect loud s (Machine.stopTakesEffect l none s)
    exact stopTakesEffect l (Option.isNone_iff_eq_none.1 idle)
  split
  · exact mapCounters s { s.map with stopPending := some l } rfl
  · exact refl s

theorem ownClearPeaks (form : ClearPeaksForm) (s : State) : Effect loud s (Machine.ownClearPeaks form s).1 := by
  unfold Machine.ownClearPeaks
  split
  · exact fewerPeaks s _ (List.nil_sublist _)
  split
  · exact refl s
  split
  · exact refl s
  · exact fewerPeaks s _ List.filter_sublist

theorem ownClearExposure (k : Nat) (s : State) : Effect loud s (Machine.ownClearExposure k s).1 := by
  unfold Machine.ownClearExposure
  split
  · exact refl s
  split
  · exact refl s
  · exact (fewerExposed s _ List.filter_sublist).trans (append _ _)

theorem ownSetClock (l : Link) (value : Nat) (s : State) : Effect loud s (Machine.ownSetClock l value s).1 :=
  (clock s { s.tmb with heaterClock := value, clockSet := true } rfl).trans (append _ _)

theorem ownSaveConfiguration (l : Link) (s : State) : Effect true s (Machine.ownSaveConfiguration l s).1 := by
  unfold Machine.ownSaveConfiguration
  split
  · exact refl s
  · exact saveConfig s _

theorem ownSaveExposure (l : Link) (s : State) : Effect true s (Machine.ownSaveExposure l s).1 := by
  unfold Machine.ownSaveExposure
  split
  · exact refl s
  · exact saveExposure s _

/-- The commands whose owners begin a read of exposure or a save. -/
def beginsReadOrSave : Instr → Bool
  | .readExposure .. | .zoneExposureTotal .. | .saveConfiguration .. | .saveExposure .. => true
  | _ => false

/-- The owner of each command but those that begin a read or a save, by the command. -/
theorem quietOwner {i : Instr} {f : Owner} (h : ownerOf i = some f) (quiet : beginsReadOrSave i = false) (s : State) :
    Effect loud s (f s).1 := by
  cases i <;> cases h
  case readStatus => exact ownReadStatus ..
  case readChannelStatistics => exact ownReadChannelStatistics ..
  case readBias => exact ownReadBias ..
  case readEvents => exact ownReadEvents ..
  case requestSweep => exact ownRequestSweep ..
  case freezeMap => exact ownFreezeMap ..
  case clearFlags => exact ownClearFlags ..
  case setMask => exact ownSetMask ..
  case acknowledge => exact ownAcknowledge ..
  case startMapping => exact ownStartMapping ..
  case stopMapping => exact ownStopMapping ..
  case cancelSweep => exact cancelSweepNow ..
  case clearPeaks => exact ownClearPeaks ..
  case clearExposure => exact ownClearExposure ..
  case freezeAndClearPeaks => exact ownFreezeAndClearPeaks ..
  case setClock => exact ownSetClock ..
  case defineCoil => exact ownDefineCoil ..
  case deleteCoil => exact ownDeleteCoil ..
  case defineChannel => exact ownDefineChannel ..
  case retireChannel => exact ownRetireChannel ..
  case returnToService => exact ownReturnToService ..
  case assignAnchor => exact ownAssignAnchor ..
  case releaseAnchor => exact ownReleaseAnchor ..
  case assignAlternate => exact ownAssignAlternate ..
  case releaseAlternate => exact ownReleaseAlternate ..
  case defineSights => exact ownDefineSights ..
  case setInterleave => exact ownSetInterleave ..
  case defineZone => exact ownDefineZone ..
  case deleteZone => exact ownDeleteZone ..
  case setParameters => exact ownSetParameters ..
  case setEditRights => exact ownSetEditRights ..
  case setAutoStart => exact ownSetAutoStart ..
  case readExposure | zoneExposureTotal | saveConfiguration | saveExposure => cases quiet
  case readAnchors form => cases form <;> exact refl s
  all_goals exact refl s

/-- The owner of each command. -/
theorem owner {i : Instr} {f : Owner} (h : ownerOf i = some f) (s : State) : Effect true s (f s).1 := by
  cases quiet : beginsReadOrSave i with
  | false => exact quietOwner h quiet s
  | true =>
    cases i <;> cases h <;> cases quiet
    · exact ownReadExposure ..
    · exact ownZoneExposureTotal ..
    · exact ownSaveConfiguration ..
    · exact ownSaveExposure ..

/-! ### The request service and the receivers -/

theorem serve {l : Link} {tag code : Byte} {owner : Option Owner} {s : State}
    (h : ∀ f, owner = some f → Effect true s (f s).1) : Effect true s (Machine.serve l tag code owner s) := by
  rcases serve_cases l tag code owner s with ⟨-, e⟩ | ⟨-, ⟨r, e⟩ | ⟨-, f, hf, ⟨t, r, p, ht, e⟩ | ⟨t, ht, e⟩⟩⟩ <;> rw [e]
  · exact onLink s l _
  · exact onLink s l _
  · have taken := h f hf
    rw [ht] at taken
    exact taken.trans (onLink t l _)
  · have taken := h f hf
    rw [ht] at taken
    exact taken.trans (onLink t l _)

theorem serveFrame (l : Link) (tag code : Byte) (payload : List Byte) (s : State) :
    Effect true s (Machine.serveFrame l tag code payload s) := by
  refine serve fun f hf => ?_
  unfold frameOwner at hf
  split at hf
  · exact owner hf s
  · split at hf
    · cases hf
      exact malformed l code payload s
    · cases hf

theorem receiveByte (l : Link) (byte : Byte) (broken late : Bool) (s : State) :
    Effect true s (Machine.receiveByte l byte broken late s) := by
  have added (buffer : List Byte) : Effect true s (addByte l buffer s) := by
    unfold addByte
    dsimp only
    split
    · exact onLink s l _
    split
    · exact onLink s l _
    split
    · exact onLink s l _
    unfold judgeFrame
    split
    · exact (onLink s l fun x => { x with receiver := .hunting }).trans (serveFrame ..)
    · exact onLink s l _
  unfold Machine.receiveByte
  split
  · exact onLink s l _
  · split
    · exact onLink s l _
    split
    · exact onLink s l _
    · exact added _
  · split
    · exact onLink s l _
    · exact refl s

end Effect

/-- A command with an owner is that owner's request served. -/
theorem exec_of_owner {i : Instr} {f : Owner} (h : ownerOf i = some f) :
    ∃ r, requestOf i = some r ∧ ∀ s, exec i s = .next (serve r.link r.tag r.code (some f) s) := by
  cases i <;> cases h <;> exact ⟨_, rfl, fun _ => rfl⟩

theorem exec_effect_of_no_owner {i : Instr} {s t : State} (hi : ownerOf i = none) (h : exec i s = .next t) :
    Effect true s t := by
  cases i <;> cases hi <;> cases h
  case powerOnReset => exact Effect.startUp ..
  case externalResetLine => exact Effect.startUp ..
  case clockSecond => exact Effect.clock s _ rfl
  case sampleExpiry => exact Effect.sampleExpires s
  case moduleReply => exact Effect.receiveReply ..
  case replyTimeExpiry => exact Effect.replyTimeEnds ..
  case reading => exact Effect.readingArrives ..
  case headFault => exact Effect.headFaultArrives ..
  case replyTimeout => exact Effect.replyTimeoutEnds s
  case sweepExpiry => exact Effect.sweepExpires s
  case passExpiry => exact Effect.passExpires s
  case tubeStep => exact Effect.tubeSteps s
  case handOffEvaluation => exact Effect.handsOff s
  case tubeCopy => exact Effect.tubeCopies s
  case freezeCompletion => exact Effect.freezeCompletes s
  case saveEnd => exact Effect.saveEnd ..
  case exposureSaveExpiry => exact Effect.exposureSaveExpires s
  case linkByte => exact Effect.receiveByte ..
  case responseSent => exact Effect.onLink s _ _
  case unknownCommandCode => exact Effect.serveFrame ..

theorem exec_effect {i : Instr} {s t : State} (h : exec i s = .next t) : Effect true s t := by
  cases hf : ownerOf i with
  | some f =>
    obtain ⟨r, -, he⟩ := exec_of_owner hf
    cases (he s).symm.trans h
    exact Effect.serve fun g hg => Effect.owner (hf.trans hg) s
  | none => exact exec_effect_of_no_owner hf h

/-- Every step is a chain of effects. -/
theorem step_effect {s t : State} (h : step s = .next t) : Effect true s t := by
  unfold step at h
  split at h
  · cases h
    exact Effect.takeTubes s
  · exact (Effect.pending s _).trans (exec_effect h)

end Sys2Proof.Machine

/-! ## What every step keeps of EVT and of the pending slot (R151, R153, R160, R56) -/

namespace Sys2Proof.Machine

/-! ### Frames of the composite effects -/

theorem copyCell_frame (clearing : Bool) (s : State) (n : Nat) :
    let t := copyCell clearing s n
    t = { s with frz := t.frz, map := { s.map with peaks := t.map.peaks } } := by
  unfold copyCell
  dsimp only
  split <;> rfl

theorem evaluatePass_frame (pass endUptime : Nat) (s : State) :
    let t := evaluatePass pass endUptime s
    t = (s.withAlm t.alm).withEvt t.evt := by
  dsimp only
  unfold evaluatePass
  rw [foldl_evaluateZone_frame]
  rfl

/-! ### EVT -/

/-- A zone's evaluation appends one event or none (R125). -/
theorem evaluateZone_evt (pass endUptime : Nat) (s : State) (entry : Nat × Zone) :
    (evaluateZone pass endUptime s entry).evt = s.evt ∨
      ∃ n, (evaluateZone pass endUptime s entry).evt = (appendEvent s n).evt := by
  unfold evaluateZone
  dsimp only
  split
  · exact .inl rfl
  · exact .inr ⟨_, rfl⟩

/-- EVT starts empty at a reset, and then changes by appends and by commands on the part of one link. -/
theorem Effect.evt_keeps {P : EventUnit → Prop}
    (reset : ∀ (masks : PerLink FlagSet) (autos : PerLink Bool), P
      { history := [], nextSequence := 0
        links :=
          { a := .reset masks.a autos.a, b := .reset masks.b autos.b, e := .reset masks.e autos.e } })
    (append : ∀ s n, P s.evt → P (appendEvent s n).evt)
    (link : ∀ (x : EventUnit) l f, (∀ y : EventLink, y.attention = y.called → (f y).attention = (f y).called) →
      P x → P (x.onLink l f))
    {loud : Bool} {s t : State} (h : Effect loud s t) : P s.evt → P t.evt := by
  induction h with
  | trans _ _ first second => exact fun hs => second (first hs)
  | loaded s => exact fun _ => reset _ _
  | append s n | fillFrozen s n => exact append _ _
  | eventLink s l f judged => exact link _ _ _ judged
  | evaluate s pass endUptime =>
    intro hs
    have zones (xs : List (Nat × Zone)) (s : State) (hs : P s.evt) :
        P (xs.foldl (evaluateZone pass endUptime) s).evt := by
      induction xs generalizing s with
      | nil => exact hs
      | cons x xs ih =>
        refine ih _ ?_
        rcases evaluateZone_evt pass endUptime s x with h | ⟨n, h⟩ <;> rw [h]
        · exact hs
        · exact append s n hs
    exact zones _ s hs
  | writeTube s p c =>
    rw [writeTube_frame]
    exact id
  | copyCell s clearing n =>
    rw [copyCell_frame]
    exact id
  | _ => exact id

/-- Consecutive numbers below `n`, at most `places` of them, with `n` joined: the oldest leaves a full list. -/
theorem range'_tail_append {places n : Nat} (hp : 0 < places) :
    (if min n places < places then List.range' (n - places) (min n places)
      else (List.range' (n - places) (min n places)).drop 1) ++ [n]
      = List.range' (n + 1 - places) (min (n + 1) places) := by
  split
  case isTrue h =>
    have small : n < places := by omega
    have first : n - places = 0 := by omega
    have next : n + 1 - places = 0 := by omega
    rw [first, next, Nat.min_eq_left small.le, Nat.min_eq_left small, List.range'_concat]
    simp
  case isFalse h =>
    obtain ⟨k, rfl⟩ : ∃ k, n = places + k := ⟨n - places, by omega⟩
    obtain ⟨m, rfl⟩ : ∃ m, places = m + 1 := ⟨places - 1, by omega⟩
    have first : m + 1 + k - (m + 1) = k := by omega
    have next : m + 1 + k + 1 - (m + 1) = k + 1 := by omega
    have last : m + 1 + k = k + 1 + 1 * m := by omega
    rw [first, next, Nat.min_eq_right (by omega), Nat.min_eq_right (by omega), List.range'_succ, List.drop_one,
      List.tail_cons, List.range'_concat, last]

/-- R151 of EVT alone. -/
def EventUnit.Consecutive (x : EventUnit) : Prop :=
  x.nextSequence ≤ max32 ∧
    x.history.map Event.sequence = List.range' (x.nextSequence - historyPlaces) (min x.nextSequence historyPlaces)

/-- An append to a history numbered without a gap numbers its entry next (R151, R153). -/
theorem consecutive_appendEvent (s : State) (n : Note) (h : s.evt.Consecutive) :
    (appendEvent s n).evt.Consecutive := by
  obtain ⟨top, numbers⟩ := h
  by_cases below : s.evt.nextSequence < max32
  · have length : s.evt.history.length = min s.evt.nextSequence historyPlaces := by
      simpa using congrArg List.length numbers
    rw [appendEvent_evt_of_lt below]
    refine ⟨below, ?_⟩
    have pushed : (pushEvent s.evt.history (noteEntry s n)).map Event.sequence
        = (if s.evt.history.length < historyPlaces then s.evt.history.map Event.sequence
            else (s.evt.history.map Event.sequence).drop 1) ++ [s.evt.nextSequence] := by
      unfold pushEvent
      split <;> simp [noteEntry]
    dsimp only
    rw [pushed, length, numbers]
    exact range'_tail_append (by decide)
  · rw [appendEvent_evt_of_exhausted (not_lt.1 below)]
    exact ⟨top, numbers⟩

theorem step_historyConsecutive {s t : State} (h : step s = .next t) (hs : HistoryConsecutive s) :
    HistoryConsecutive t :=
  Effect.evt_keeps (P := EventUnit.Consecutive) (fun _ _ => ⟨Nat.zero_le _, rfl⟩) consecutive_appendEvent
    (fun _ _ _ _ h => h) (step_effect h) hs

/-- Each line of EVT is the one that its link's flags and mask call for (R160). -/
def EventUnit.Judged (x : EventUnit) : Prop := ∀ l, (x.links.get l).attention = (x.links.get l).called

theorem EventLink.reset_judged (mask : FlagSet) (auto : Bool) :
    (EventLink.reset mask auto).attention = (EventLink.reset mask auto).called := by
  simp [EventLink.reset, EventLink.called]

theorem step_attentionFollowsFlags {s t : State} (h : step s = .next t) (hs : AttentionFollowsFlags s) :
    AttentionFollowsFlags t := by
  refine Effect.evt_keeps (P := EventUnit.Judged) (fun masks autos l => ?reset) (fun s n _ l => ?append)
    (fun x l f judged hx m => ?link) (step_effect h) hs
  case reset => cases l <;> exact EventLink.reset_judged _ _
  case append =>
    rw [appendEvent_link]
    exact EventLink.setFlags_attention _ _
  case link =>
    by_cases hm : m = l
    · subst hm
      simp only [EventUnit.onLink, PerLink.get_set_same]
      exact judged _ (hx m)
    · simp only [EventUnit.onLink, PerLink.get_set_other _ _ _ _ hm]
      exact hx m

/-! ### The pending slot -/

theorem Effect.slotOnlyWhileSweeping {loud : Bool} {s t : State} (h : Effect loud s t) :
    SlotOnlyWhileSweeping s → SlotOnlyWhileSweeping t := by
  unfold SlotOnlyWhileSweeping
  induction h with
  | trans _ _ first second => exact fun hs => second (first hs)
  | loaded s => exact fun _ _ => rfl
  | scanner s x _ slot =>
    intro hs idle
    rcases slot idle with empty | ⟨before, same⟩
    · exact empty
    · exact same.trans (hs before)
  | stop s walking =>
    simp only [stoppedBlocks, cancelledScanner]
    split
    · exact id
    · exact fun _ _ => rfl
  | evaluate s pass endUptime =>
    rw [evaluatePass_frame]
    exact id
  | writeTube s p c =>
    rw [writeTube_frame]
    exact id
  | copyCell s clearing n =>
    rw [copyCell_frame]
    exact id
  | _ => exact id

/-- Settles O58: each of the three invariants through the effects of a step. -/
theorem eventsAndSlotStayLegal : Obligations.EventsAndSlotStayLegal := by
  unfold Obligations.EventsAndSlotStayLegal
  exact fun s t h => ⟨step_historyConsecutive h, step_attentionFollowsFlags h, (step_effect h).slotOnlyWhileSweeping⟩

end Sys2Proof.Machine

/-! ## What every step keeps of the tables' form (log entry 30)

The form is taken apart by block, so that each effect is looked at where it writes. -/

namespace Sys2Proof.Machine

/-! ### The form by block -/

/-- A table in order that lists no blank entry. -/
def Table.Canonical {α : Type} [DecidableEq α] (blank : α) (t : Table α) : Prop :=
  Table.rising t = true ∧ Table.noBlank blank t = true

section
variable {α : Type} [DecidableEq α] {blank : α} {t : Table α}

theorem Table.Canonical.put (h : Table.Canonical blank t) (k : Nat) (v : α) :
    Table.Canonical blank (Table.put blank t k v) :=
  ⟨Table.rising_put blank h.1 k v, Table.noBlank_put blank h.2 k v⟩

theorem Table.Canonical.sublist {u : Table α} (h : Table.Canonical blank t) (hu : u.Sublist t) :
    Table.Canonical blank u :=
  ⟨Table.rising_of_sublist hu h.1,
    (Table.noBlank_iff blank u).2 fun x hx => (Table.noBlank_iff blank t).1 h.2 x (hu.subset hx)⟩

theorem Table.Canonical.restrict (h : Table.Canonical blank t) (keep : Nat → Bool) :
    Table.Canonical blank (Table.restrict keep t) := h.sublist List.filter_sublist

theorem Table.canonical_nil : Table.Canonical blank ([] : Table α) := ⟨rfl, rfl⟩

end

def Acquisition.Canonical (x : Acquisition) : Prop :=
  Table.Canonical .unused x.channels ∧ Table.Canonical .reset x.slots

def Scanner.Canonical (x : Scanner) : Prop :=
  Table.rising x.sights = true ∧ Table.rising x.scans = true ∧ Table.Canonical .reset x.biases

def MapEngine.Canonical (x : MapEngine) : Prop :=
  Table.Canonical .blank x.cells ∧ Table.rising x.peaks = true ∧ ExposureCanonical x.exposure

def AlarmUnit.Canonical (x : AlarmUnit) : Prop :=
  Table.rising x.zones = true ∧ Table.Canonical .reset x.records ∧ Table.rising x.windows = true ∧
    Table.rising x.figures = true

def FreezeUnit.Canonical (x : FreezeUnit) : Prop :=
  Table.Canonical .blank x.cellCopies ∧ Table.rising x.peakCopies = true

def ConfigUnit.Canonical (x : ConfigUnit) : Prop :=
  Table.rising x.coils = true ∧ Table.rising x.primaries = true ∧ Table.rising x.alternates = true

def Store.Canonical (x : Store) : Prop :=
  (∀ y ∈ x.configImages, y.Ordered) ∧ ∀ y ∈ x.exposureImages, ExposureCanonical y.exposure

/-- The whole form, block by block. -/
structure BlocksCanonical (s : State) : Prop where
  acq : s.acq.Canonical
  scn : s.scn.Canonical
  map : s.map.Canonical
  alm : s.alm.Canonical
  frz : s.frz.Canonical
  cfg : s.cfg.Canonical
  nvs : s.nvs.Canonical

theorem tablesCanonical_iff (s : State) : TablesCanonical s ↔ BlocksCanonical s := by
  constructor
  · intro h
    exact
      { acq := ⟨h.channels, h.slots⟩, scn := ⟨h.sights, h.scans, h.biases⟩, map := ⟨h.cells, h.peaks, h.exposure⟩
        alm := ⟨h.zones, h.records, h.windows, h.figures⟩, frz := ⟨h.cellCopies, h.peakCopies⟩
        cfg := ⟨h.coils, h.primaries, h.alternates⟩, nvs := ⟨h.configImages, h.exposureImages⟩ }
  · rintro ⟨⟨channels, slots⟩, ⟨sights, scans, biases⟩, ⟨cells, peaks, exposure⟩, ⟨zones, records, windows, figures⟩,
      ⟨cellCopies, peakCopies⟩, ⟨coils, primaries, alternates⟩, configImages, exposureImages⟩
    constructor <;> assumption

/-! ### The stored images -/

theorem Store.mem_configImages (x : Store) (y : ConfigImage) :
    y ∈ x.configImages ↔
      (∃ z, x.configStore = some z ∧ z.contents = y) ∨ ∃ z, x.save = some z ∧ z.capture = .config y := by
  have captured (z : Capture) : z.config? = some y ↔ z = .config y := by
    cases z <;> simp [Capture.config?]
  simp [Store.configImages, captured, Option.bind_eq_some_iff]

theorem Store.mem_exposureImages (x : Store) (y : ExposureImage) :
    y ∈ x.exposureImages ↔
      (∃ z, x.exposureStore = some z ∧ z.contents = y) ∨ ∃ z, x.save = some z ∧ z.capture = .exposure y := by
  have captured (z : Capture) : z.exposure? = some y ↔ z = .exposure y := by
    cases z <;> simp [Capture.exposure?]
  simp [Store.exposureImages, captured, Option.bind_eq_some_iff]

/-- `y` holds no image that `x` does not hold. -/
def Store.ImagesWithin (y x : Store) : Prop :=
  (∀ z ∈ y.configImages, z ∈ x.configImages) ∧ ∀ z ∈ y.exposureImages, z ∈ x.exposureImages

/-- The end of a save stores what it captured, or drops an image (R180). -/
theorem imagesWithin_saveEnds {x : Store} {z : Save} (h : x.save = some z) (agrees : Bool) :
    Store.ImagesWithin { writeImage agrees z.capture x with save := none } x := by
  simp only [Store.ImagesWithin, Store.mem_configImages, Store.mem_exposureImages, writeImage]
  cases hz : z.capture <;> cases agrees <;> grind

/-- A cut write drops an image (R180). -/
theorem cutSave_stores (x : Store) :
    ((cutSave x).configStore = none ∨ (cutSave x).configStore = x.configStore) ∧
      ((cutSave x).exposureStore = none ∨ (cutSave x).exposureStore = x.exposureStore) := by
  unfold cutSave
  split <;> simp

theorem imagesWithin_loaded (external strap1 strap0 : Bool) (s : State) :
    Store.ImagesWithin (loaded external strap1 strap0 s).nvs s.nvs := by
  obtain ⟨config, exposure⟩ := cutSave_stores s.nvs
  simp only [Store.ImagesWithin, Store.mem_configImages, Store.mem_exposureImages, loaded]
  grind

theorem readConfigImage_mem {x : Store} {y : ConfigImage} (h : readConfigImage (cutSave x).configStore = some y) :
    y ∈ x.configImages := by
  obtain ⟨config, -⟩ := cutSave_stores x
  rw [Store.mem_configImages]
  unfold readConfigImage at h
  grind

theorem readExposureImage_mem {x : Store} {y : ExposureImage}
    (h : readExposureImage (cutSave x).exposureStore = some y) : y ∈ x.exposureImages := by
  obtain ⟨-, exposure⟩ := cutSave_stores x
  rw [Store.mem_exposureImages]
  unfold readExposureImage at h
  grind

/-- A save of the configuration adds its capture to the images. -/
theorem configImages_saveConfig (s : State) (l : Option Link) (y : ConfigImage)
    (h : y ∈ (withSave s (some { capture := .config (captureConfig s), requester := l })).nvs.configImages) :
    y = captureConfig s ∨ y ∈ s.nvs.configImages := by
  simp only [Store.mem_configImages, withSave, State.withNvs_nvs] at h ⊢
  grind

theorem exposureImages_saveConfig (s : State) (l : Option Link) (y : ExposureImage)
    (h : y ∈ (withSave s (some { capture := .config (captureConfig s), requester := l })).nvs.exposureImages) :
    y ∈ s.nvs.exposureImages := by
  simp only [Store.mem_exposureImages, withSave, State.withNvs_nvs] at h ⊢
  grind

/-- A save of the exposure adds its capture to the images. -/
theorem exposureImages_saveExposure (s : State) (l : Option Link) (y : ExposureImage)
    (h : y ∈ (withSave s (some { capture := .exposure (captureExposure s), requester := l })).nvs.exposureImages) :
    y = captureExposure s ∨ y ∈ s.nvs.exposureImages := by
  simp only [Store.mem_exposureImages, withSave, State.withNvs_nvs] at h ⊢
  grind

theorem configImages_saveExposure (s : State) (l : Option Link) (y : ConfigImage)
    (h : y ∈ (withSave s (some { capture := .exposure (captureExposure s), requester := l })).nvs.configImages) :
    y ∈ s.nvs.configImages := by
  simp only [Store.mem_configImages, withSave, State.withNvs_nvs] at h ⊢
  grind

/-! ### Each effect, block by block -/

theorem Acquisition.Canonical.setChannel {s : State} (h : s.acq.Canonical) (n : Nat) (c : Channel) :
    (s.setChannel n c).acq.Canonical := ⟨h.1.put n c, h.2⟩

theorem Channel.grow_eq_unused {c : Channel} (h : c.grow = .unused) : c = .unused := by
  obtain ⟨state, cause, lastGood, candidate, lostRun, config, stats⟩ := c
  cases lastGood <;> simp_all [Channel.grow, Channel.unused]

theorem Acquisition.Canonical.grow {x : Acquisition} (h : x.Canonical) :
    ({ x with channels := Table.mapEntries (fun _ c => c.grow) x.channels } : Acquisition).Canonical := by
  obtain ⟨⟨rising, noBlank⟩, slots⟩ := h
  refine ⟨⟨Table.rising_mapEntries rising fun _ c => c.grow, ?_⟩, slots⟩
  rw [Table.noBlank_iff] at noBlank ⊢
  simp only [Table.mapEntries, List.forall_mem_map]
  exact fun y hy blank => noBlank y hy (Channel.grow_eq_unused blank)

theorem ConfigImage.unconfigured_ordered : ConfigImage.unconfigured.Ordered := ⟨rfl, rfl, rfl, rfl, rfl, rfl⟩

theorem ChannelImage.load_ne_unused (x : ChannelImage) : x.load ≠ .unused := by
  intro h
  have := congrArg Channel.config h
  simp [ChannelImage.load, Channel.unused] at this

theorem acq_canonical_of_load {channels : Table ChannelImage} (h : Table.rising channels = true) :
    Table.Canonical .unused (Table.mapEntries (fun _ x => x.load) channels) := by
  refine ⟨Table.rising_mapEntries h _, ?_⟩
  rw [Table.noBlank_iff]
  simp only [Table.mapEntries, List.forall_mem_map]
  exact fun y _ => ChannelImage.load_ne_unused y.2

theorem BlocksCanonical.loaded {s : State} (h : BlocksCanonical s) (external strap1 strap0 : Bool) :
    BlocksCanonical (loaded external strap1 strap0 s) := by
  obtain ⟨configs, exposures⟩ := h.nvs
  have image : ((readConfigImage (cutSave s.nvs).configStore).getD .unconfigured).Ordered := by
    cases hi : readConfigImage (cutSave s.nvs).configStore with
    | none => exact ConfigImage.unconfigured_ordered
    | some y => exact configs y (readConfigImage_mem hi)
  have source : ExposureCanonical
      (exposureSource external s (readExposureImage (cutSave s.nvs).exposureStore)).exposure := by
    unfold exposureSource
    split
    · exact h.map.2.2
    · cases hi : readExposureImage (cutSave s.nvs).exposureStore with
      | none => exact ⟨rfl, rfl⟩
      | some y => exact exposures y (readExposureImage_mem hi)
  obtain ⟨fewerConfigs, fewerExposures⟩ := imagesWithin_loaded external strap1 strap0 s
  exact
    { acq := ⟨acq_canonical_of_load image.channels, Table.canonical_nil⟩
      scn := ⟨image.sights, rfl, Table.canonical_nil⟩
      map := ⟨Table.canonical_nil, rfl, Table.Canonical.restrict source _⟩
      alm := ⟨image.zones, Table.canonical_nil, rfl, rfl⟩
      frz := ⟨Table.canonical_nil, rfl⟩
      cfg := ⟨image.coils, image.primaries, image.alternates⟩
      nvs := ⟨fun y hy => configs y (fewerConfigs y hy), fun y hy => exposures y (fewerExposures y hy)⟩ }

/-- The sights after a Define Sights are listed in order (R46). -/
theorem sightsAfter_rising (count first : Nat) (entries : List (Option Nat)) (sights : Table Nat) :
    Table.rising (sightsAfter count first entries sights) = true := by
  rw [Table.rising_iff_pairwise, sightsAfter, List.pairwise_filterMap]
  refine List.pairwise_lt_range.imp fun {a b} hab x hx y hy => ?_
  have number (n : Nat) (x : Nat × Nat)
      (hx : (match listedEntry first entries n with
        | some entry => entry.map fun cell => (n, cell)
        | none => (Table.find sights n).map fun cell => (n, cell)) = some x) : x.1 = n := by
    split at hx <;> · obtain ⟨_, -, rfl⟩ := Option.map_eq_some_iff.1 hx; rfl
  rw [number a x hx, number b y hy]
  exact hab

theorem MapEngine.Canonical.writeCell {s : State} (h : s.map.Canonical) (c : CoilDef) (pass : Nat)
    (x : Nat × CellRecord) : (writeCell c pass s x).map.Canonical := by
  obtain ⟨cells, peaks, exposure⟩ := h
  exact ⟨cells.put _ _, Table.rising_set peaks _ _, Table.Canonical.put exposure _ _⟩

theorem MapEngine.Canonical.writeTube {s : State} (h : s.map.Canonical) (pass k : Nat) (c : CoilDef) (tube : Nat) :
    (writeTube pass k c tube s).map.Canonical := by
  unfold Machine.writeTube
  generalize (tubeCells s.geometry k c.elevations tube).zip (evaluateTube s pass k c.dims tube) = cells
  induction cells generalizing s with
  | nil => exact h
  | cons x cells ih => exact ih (h.writeCell c pass x)

theorem AlarmUnit.Canonical.evaluateZone {s : State} (h : s.alm.Canonical) (pass endUptime : Nat)
    (entry : Nat × Zone) : (evaluateZone pass endUptime s entry).alm.Canonical := by
  obtain ⟨zones, records, windows, figures⟩ := h
  unfold Machine.evaluateZone
  dsimp only
  split <;>
    exact ⟨zones, records.put _ _, Table.rising_insert windows _ _, Table.rising_insert figures _ _⟩

theorem AlarmUnit.Canonical.evaluatePass {s : State} (h : s.alm.Canonical) (pass endUptime : Nat) :
    (evaluatePass pass endUptime s).alm.Canonical := by
  have zones (xs : List (Nat × Zone)) (s : State) (h : s.alm.Canonical) :
      (xs.foldl (Machine.evaluateZone pass endUptime) s).alm.Canonical := by
    induction xs generalizing s with
    | nil => exact h
    | cons x xs ih => exact ih _ (h.evaluateZone pass endUptime x)
  exact zones s.alm.zones s h

theorem AlarmUnit.Canonical.resetZone {x : AlarmUnit} (h : x.Canonical) (n : Nat) : (resetZone x n).Canonical := by
  obtain ⟨zones, records, windows, figures⟩ := h
  exact ⟨zones, records.put _ _, Table.rising_erase windows _, Table.rising_erase figures _⟩

theorem AlarmUnit.Canonical.dropZones {x : AlarmUnit} (h : x.Canonical) (coils : Table CoilDef) :
    (dropZones coils x).Canonical := by
  obtain ⟨zones, records, windows, figures⟩ := h
  unfold Machine.dropZones
  dsimp only
  have all (lost : List Nat) (y : AlarmUnit) (h : y.Canonical) : (lost.foldl Machine.resetZone y).Canonical := by
    induction lost generalizing y with
    | nil => exact h
    | cons n lost ih => exact ih _ (h.resetZone n)
  exact all _ _ ⟨Table.rising_filter zones _, records, windows, figures⟩

theorem AlarmUnit.Canonical.applyZone {s : State} (h : s.alm.Canonical) (n : Nat) (z : Option Zone) :
    (applyZone n z s).alm.Canonical := by
  obtain ⟨zones, records, windows, figures⟩ := h
  have set : ({ s.alm with zones := Table.set s.alm.zones n z } : AlarmUnit).Canonical :=
    ⟨Table.rising_set zones n z, records, windows, figures⟩
  exact set.resetZone n

theorem AlarmUnit.Canonical.silenceAlarms {s : State} (h : s.alm.Canonical) (pass : Nat) :
    (silenceAlarms pass s).alm.Canonical := by
  obtain ⟨zones, ⟨rising, -⟩, windows, figures⟩ := h
  refine ⟨zones, ⟨Table.rising_filterMap rising _ fun x y hy => ?_, ?_⟩, windows, figures⟩
  · split at hy <;> cases hy
    rfl
  · rw [Table.noBlank_iff]
    intro y hy
    obtain ⟨x, -, hx⟩ := List.mem_filterMap.1 hy
    split at hx
    · cases hx
    case isFalse raised =>
      cases hx
      exact fun h => raised (congrArg AlarmRecord.occurrence h)

theorem captureConfig_ordered {s : State} (h : BlocksCanonical s) : (captureConfig s).Ordered :=
  { coils := h.cfg.1
    channels := Table.rising_filterMap h.acq.1.1 _ fun x y hy => by
      obtain ⟨_, -, rfl⟩ := Option.map_eq_some_iff.1 hy
      rfl
    primaries := h.cfg.2.1
    alternates := h.cfg.2.2
    sights := h.scn.1
    zones := h.alm.1 }

theorem BlocksCanonical.applyCoilEdit {s : State} (h : BlocksCanonical s) (k : Nat) (entry : Option CoilDef) :
    BlocksCanonical (applyCoilEdit k entry s) := by
  obtain ⟨acq, ⟨sights, scans, biases⟩, ⟨cells, peaks, exposure⟩, alm, frz, ⟨coils, primaries, alternates⟩, nvs⟩ := h
  exact
    { acq := acq
      scn := ⟨Table.rising_filter sights _, Table.rising_restrict scans _, biases.sublist (Table.erase_sublist _ k)⟩
      map := ⟨cells.restrict _, Table.rising_restrict peaks _, Table.Canonical.restrict exposure _⟩
      alm := alm.dropZones _
      frz := by
        show (if allKept _ _ then s.frz else s.frz.discard).Canonical
        split
        · exact frz
        · exact ⟨Table.canonical_nil, rfl⟩
      cfg := ⟨Table.rising_set coils k entry, Table.rising_restrict primaries _,
        Table.rising_filter (Table.rising_restrict alternates _) _⟩
      nvs := nvs }

theorem Effect.blocksCanonical {loud : Bool} {s t : State} (h : Effect loud s t) : BlocksCanonical s → BlocksCanonical t := by
  induction h with
  | trans _ _ first second => exact fun hs => second (first hs)
  | refl | pending | links | joined | clock | append | eventLink | passCounter | freeze | poll =>
    exact fun ⟨acq, scn, map, alm, frz, cfg, nvs⟩ => ⟨acq, scn, map, alm, frz, cfg, nvs⟩
  | loaded s external strap1 strap0 => exact fun hs => hs.loaded external strap1 strap0
  | grow s => exact fun hs => { hs with acq := hs.acq.grow }
  | slot s k x => exact fun hs => { hs with acq := ⟨hs.acq.1, hs.acq.2.put k x⟩ }
  | sample | clearCounters | configure | remove | retire | restore =>
    exact fun hs => { hs with acq := hs.acq.setChannel _ _ }
  | scanner s x kept =>
    intro hs
    rw [kept]
    exact { hs with scn := hs.scn }
  | scan s sight cell x =>
    exact fun hs => { hs with scn := ⟨hs.scn.1, Table.rising_insert hs.scn.2.1 cell x, hs.scn.2.2⟩ }
  | bias s k x => exact fun hs => { hs with scn := ⟨hs.scn.1, hs.scn.2.1, hs.scn.2.2.put k x⟩ }
  | sights s count first entries =>
    exact fun hs =>
      { hs with scn := ⟨sightsAfter_rising .., Table.rising_filter hs.scn.2.1 _, hs.scn.2.2⟩ }
  | mapCounters s x kept =>
    intro hs
    rw [kept]
    exact { hs with map := hs.map }
  | startMapping =>
    exact fun hs =>
      { hs with
        map := ⟨Table.canonical_nil, hs.map.2⟩
        alm := ⟨hs.alm.1, hs.alm.2.1, rfl, hs.alm.2.2.2⟩ }
  | newPass | movePass | endPass | establish | answerRead | takeRead | readCells | readZone =>
    exact fun hs => { hs with map := hs.map }
  | writeTube s p c =>
    intro hs
    have map := hs.map.writeTube p.number p.coil c p.tube
    rw [writeTube_frame] at map ⊢
    exact { hs with map := map }
  | stop s walking =>
    intro hs
    refine { hs with scn := ?_, map := ?_, alm := hs.alm.silenceAlarms _ }
    · simp only [stoppedBlocks, cancelledScanner]
      split <;> exact hs.scn
    · simp only [stoppedBlocks, abandonedMap]
      split <;> exact hs.map
  | fewerPeaks s x fewer =>
    exact fun hs => { hs with map := ⟨hs.map.1, Table.rising_of_sublist fewer hs.map.2.1, hs.map.2.2⟩ }
  | fewerExposed s x fewer =>
    exact fun hs => { hs with map := ⟨hs.map.1, hs.map.2.1, Table.Canonical.sublist hs.map.2.2 fewer⟩ }
  | evaluate s pass endUptime =>
    intro hs
    have alm := hs.alm.evaluatePass pass endUptime
    rw [evaluatePass_frame] at alm ⊢
    exact { hs with alm := alm }
  | acknowledge =>
    exact fun hs => { hs with alm := ⟨hs.alm.1, hs.alm.2.1.put _ _, hs.alm.2.2⟩ }
  | defineZone | deleteZone => exact fun hs => { hs with alm := hs.alm.applyZone _ _ }
  | copyCell s clearing n =>
    intro hs
    have frz : (Machine.copyCell clearing s n).frz.Canonical := by
      unfold Machine.copyCell
      dsimp only
      split <;> exact ⟨hs.frz.1.put _ _, Table.rising_set hs.frz.2 _ _⟩
    have peaks : Table.rising (Machine.copyCell clearing s n).map.peaks = true := by
      unfold Machine.copyCell
      dsimp only
      split
      · exact Table.rising_erase hs.map.2.1 n
      · exact hs.map.2.1
    rw [copyCell_frame]
    exact { hs with frz := frz, map := ⟨hs.map.1, peaks, hs.map.2.2⟩ }
  | fillFrozen =>
    exact fun hs => { hs with frz := ⟨hs.frz.1.restrict _, Table.rising_restrict hs.frz.2 _⟩ }
  | settings s x kept =>
    intro hs
    rw [kept]
    exact { hs with cfg := hs.cfg }
  | editCoil => exact fun hs => hs.applyCoilEdit _ _
  | assignPrimary =>
    exact fun hs =>
      { hs with
        cfg := ⟨hs.cfg.1, Table.rising_insert (Table.rising_filter hs.cfg.2.1 _) _ _,
          Table.rising_filter hs.cfg.2.2 _⟩ }
  | releasePrimary =>
    exact fun hs =>
      { hs with cfg := ⟨hs.cfg.1, Table.rising_erase hs.cfg.2.1 _, Table.rising_filter hs.cfg.2.2 _⟩ }
  | assignAlternate =>
    exact fun hs => { hs with cfg := ⟨hs.cfg.1, hs.cfg.2.1, Table.rising_insert hs.cfg.2.2 _ _⟩ }
  | releaseAlternate =>
    exact fun hs => { hs with cfg := ⟨hs.cfg.1, hs.cfg.2.1, Table.rising_erase hs.cfg.2.2 _⟩ }
  | saveConfig s l =>
    intro hs
    obtain ⟨configs, exposures⟩ := hs.nvs
    refine { hs with nvs := ⟨fun y hy => ?_, fun y hy => exposures y (exposureImages_saveConfig s l y hy)⟩ }
    obtain rfl | hy := configImages_saveConfig s l y hy
    · exact captureConfig_ordered hs
    · exact configs y hy
  | saveExposure s l =>
    intro hs
    obtain ⟨configs, exposures⟩ := hs.nvs
    refine { hs with nvs := ⟨fun y hy => configs y (configImages_saveExposure s l y hy), fun y hy => ?_⟩ }
    obtain rfl | hy := exposureImages_saveExposure s l y hy
    · exact hs.map.2.2
    · exact exposures y hy
  | saveWaits => exact fun hs => { hs with nvs := hs.nvs }
  | saveEnds s agrees x flying =>
    intro hs
    obtain ⟨configs, exposures⟩ := hs.nvs
    obtain ⟨fewerConfigs, fewerExposures⟩ := imagesWithin_saveEnds flying agrees
    exact { hs with nvs := ⟨fun y hy => configs y (fewerConfigs y hy), fun y hy => exposures y (fewerExposures y hy)⟩ }

theorem Effect.tablesCanonical {loud : Bool} {s t : State} (h : Effect loud s t) (hs : TablesCanonical s) : TablesCanonical t :=
  (tablesCanonical_iff t).2 (h.blocksCanonical ((tablesCanonical_iff s).1 hs))

/-- Settles O53: every effect of a step keeps the form. -/
theorem tablesStayCanonical : Obligations.TablesStayCanonical := by
  unfold Obligations.TablesStayCanonical
  exact fun s t hs h => (step_effect h).tablesCanonical hs

end Sys2Proof.Machine

/-! ## Rounding half away from zero (R28, R77, R79) -/

namespace Sys2Proof.Machine

/-- The quotient rounded is at most half a unit away, and at exactly half it lies farther from zero. -/
theorem roundHalfAway_spec (n : Int) {d : Nat} (hd : 0 < d) :
    2 * (n - roundHalfAway n d * d).natAbs ≤ d ∧
      (2 * (n - roundHalfAway n d * d).natAbs = d → n.natAbs < (roundHalfAway n d * d).natAbs) := by
  have quotient := Nat.div_add_mod (2 * n.natAbs + d) (2 * d)
  have remainder : (2 * n.natAbs + d) % (2 * d) < 2 * d := Nat.mod_lt _ (by omega)
  unfold roundHalfAway
  generalize (2 * n.natAbs + d) % (2 * d) = r at quotient remainder
  generalize (2 * n.natAbs + d) / (2 * d) = q at quotient
  have cleared : 2 * d * q = 2 * (q * d) := by ring
  rw [cleared] at quotient
  split
  · have product : -(q : Int) * d = -((q * d : Nat) : Int) := by push_cast; ring
    rw [product]
    omega
  · have product : (q : Int) * d = ((q * d : Nat) : Int) := by push_cast; ring
    rw [product]
    omega

/-- A quotient between two integers is rounded to an integer between them. -/
theorem roundHalfAway_between {n lo hi : Int} {d : Nat} (hd : 0 < d) (hlo : lo * d ≤ n) (hhi : n ≤ hi * d) :
    lo ≤ roundHalfAway n d ∧ roundHalfAway n d ≤ hi := by
  obtain ⟨near, -⟩ := roundHalfAway_spec n hd
  generalize roundHalfAway n d = v at near
  have hd' : (0 : Int) < d := by exact_mod_cast hd
  have near' : -(d : Int) ≤ 2 * (n - v * d) ∧ 2 * (n - v * d) ≤ d := by omega
  constructor
  · by_contra! below
    have : (v + 1) * (d : Int) ≤ lo * d := mul_le_mul_of_nonneg_right below hd'.le
    linarith [near'.2]
  · by_contra! above
    have : (hi + 1) * (d : Int) ≤ v * d := mul_le_mul_of_nonneg_right above hd'.le
    linarith [near'.1]

/-- An interpolated value lies between its two anchors (R77). -/
theorem interpolated_between {low high : Nat × Int} {e : Nat} (hl : low.1 < e) (hh : e < high.1) :
    min low.2 high.2 ≤ interpolated low high e ∧ interpolated low high e ≤ max low.2 high.2 := by
  have span : 0 < high.1 - low.1 := by omega
  have part : (0 : Int) ≤ (e - low.1 : Nat) := Int.natCast_nonneg _
  have whole : ((e - low.1 : Nat) : Int) ≤ (high.1 - low.1 : Nat) := by exact_mod_cast (by omega : e - low.1 ≤ high.1 - low.1)
  unfold interpolated
  rcases le_total low.2 high.2 with up | down
  · have := roundHalfAway_between (n := (high.2 - low.2) * (e - low.1 : Nat)) (lo := 0) (hi := high.2 - low.2) span
      (by rw [zero_mul]; exact mul_nonneg (by omega) part) (mul_le_mul_of_nonneg_left whole (by omega))
    omega
  · have := roundHalfAway_between (n := (high.2 - low.2) * (e - low.1 : Nat)) (lo := high.2 - low.2) (hi := 0) span
      (mul_le_mul_of_nonpos_left whole (by omega)) (by rw [zero_mul]; exact mul_nonpos_of_nonpos_of_nonneg (by omega) part)
    omega

/-- The mean of two values lies between them (R79). -/
theorem mean_between (v w : Int) : min v w ≤ roundHalfAway (v + w) 2 ∧ roundHalfAway (v + w) 2 ≤ max v w :=
  roundHalfAway_between (by decide) (by push_cast; omega) (by push_cast; omega)

end Sys2Proof.Machine

/-! ## What every step keeps of the map's values (R13, R76)

Channels give values of the map range, and a tube write draws on channels, on clamped sums, and on values that lie
between such. -/

namespace Sys2Proof.Machine

/-! ### Channels -/

theorem channel_setChannel {s : State} (h : Table.rising s.acq.channels = true) (n m : Nat) (c : Channel) :
    (s.setChannel n c).channel m = if m = n then c else s.channel m := Table.get_put Channel.unused h n c m

theorem Channel.inRange_unused : Channel.unused.InRange := ⟨nofun, nofun⟩

theorem Channel.InRange.accept {v : Int} (hv : MapValue v) (uptime : Nat) (c : Channel) :
    (c.accept v uptime).InRange := by
  refine ⟨?_, nofun⟩
  rintro _ ⟨⟩
  exact hv

theorem Channel.InRange.failed {c : Channel} (h : c.InRange) (cause : FailureCause) : (c.failed cause).1.InRange :=
  ⟨h.1, nofun⟩

theorem Channel.InRange.emptySample {c : Channel} (h : c.InRange) (failTime : Nat) :
    (c.emptySample failTime).1.InRange := by
  unfold Channel.emptySample
  dsimp only
  split
  · exact Channel.InRange.failed (c := c.loseSample) h .noData
  · exact h

theorem Channel.InRange.weigh {c : Channel} (h : c.InRange) (confirmCount uptime : Nat) {k : Candidate}
    (hk : MapValue k.value) : (c.weigh confirmCount uptime k).1.InRange := by
  unfold Channel.weigh
  split
  · exact Channel.InRange.accept (c := c) hk uptime
  · refine ⟨h.1, ?_⟩
    rintro _ ⟨⟩
    exact hk

theorem Channel.InRange.healthyReading {c : Channel} (h : c.InRange) (p : Parameters) (uptime maxStep : Nat) {v : Int}
    (hv : MapValue v) : (c.healthyReading p uptime maxStep v).1.InRange := by
  unfold Channel.healthyReading
  split
  · exact .accept hv uptime c
  split
  · exact .accept hv uptime c
  · exact Channel.InRange.weigh (c := c.countStep) h _ _ hv

theorem Channel.InRange.suspectReading {c : Channel} (h : c.InRange) (p : Parameters) (uptime maxStep : Nat) {v : Int}
    (hv : MapValue v) : (c.suspectReading p uptime maxStep v).1.InRange := by
  unfold Channel.suspectReading
  dsimp only
  split
  · exact .accept hv uptime c
  split
  · exact h.weigh _ _ hv
  · exact Channel.InRange.weigh (c := c.countStep) h _ _ hv

theorem Channel.InRange.ageSuspect {r : Sampled} (h : r.1.InRange) (failTime : Nat) :
    (ageSuspect failTime r).1.InRange := by
  unfold Machine.ageSuspect
  split
  case h_1 k _ hk =>
    have aged : ({ r.1 with candidate := some { k with suspectAge := raise max8 k.suspectAge } } : Channel).InRange := by
      refine ⟨h.1, ?_⟩
      rintro _ ⟨⟩
      exact h.2 k hk
    dsimp only
    split
    · exact aged.failed _
    · exact aged
  case h_2 => exact h

/-- A sample judged in range leaves a channel in range (R31 to R35). -/
theorem Channel.InRange.sample {c : Channel} (h : c.InRange) (p : Parameters) (uptime maxStep : Nat) {j : Judgement}
    (hj : ∀ v b, j = .valid v b → MapValue v) : (c.sample p uptime maxStep j).1.InRange := by
  unfold Channel.sample
  split
  case h_1 => exact h
  case h_2 v b _ => exact .accept (hj v b rfl) uptime c
  case h_3 | h_6 | h_9 => exact h.failed _
  case h_4 | h_7 => exact h.emptySample _
  case h_5 v b _ => exact h.healthyReading p uptime maxStep (hj v b rfl)
  case h_8 v b _ => exact (h.suspectReading p uptime maxStep (hj v b rfl)).ageSuspect _
  case h_10 => exact Channel.InRange.ageSuspect (r := (c.loseSample, [])) h _
  all_goals exact h

theorem Channel.InRange.configure {c : Channel} (h : c.InRange) (cfg : ChannelConfig) : (c.configure cfg).InRange := by
  unfold Channel.configure
  split
  · exact h
  · exact h
  · exact ⟨nofun, nofun⟩

theorem Channel.InRange.grow {c : Channel} (h : c.InRange) : c.grow.InRange := by
  refine ⟨fun g hg => ?_, h.2⟩
  obtain ⟨g', hg', rfl⟩ := Option.map_eq_some_iff.1 hg
  exact h.1 g' hg'

/-! ### Sources of a cell -/

theorem freshRecord_inRange (pass : Nat) {v : Int} (hv : MapValue v) {q : Quality} (hq : q ≠ .empty)
    (source : Option Nat) : (freshRecord pass v q source).InRange := by
  refine ⟨⟨nofun, fun h => absurd h hq⟩, ?_⟩
  rintro _ ⟨⟩
  exact hv

theorem Channel.InRange.usableValue {c : Channel} (h : c.InRange) {v : Int} (hv : c.usableValue = some v) :
    MapValue v := by
  unfold Channel.usableValue at hv
  split at hv
  case h_1 g _ hg =>
    obtain ⟨-, rfl⟩ : g.age ≤ 2 ∧ g.value = v := by simpa using hv
    exact h.1 g hg
  case h_2 => cases hv

/-- A direct source gives a value of the map range, of a quality that is not Empty (R75, R76). -/
theorem directSource_inRange {s : State} (h : ∀ n, (s.channel n).InRange) {k cell : Nat} {d : Direct}
    (hd : directSource s k cell = some d) : MapValue d.value ∧ d.quality ≠ .empty := by
  simp only [directSource, Option.or_eq_some_iff] at hd
  obtain measured | ⟨-, substituted | ⟨-, scanned⟩⟩ := hd
  · unfold measuredSource at measured
    split at measured
    · cases measured
    · obtain ⟨v, hv, rfl⟩ := Option.map_eq_some_iff.1 measured
      exact ⟨(h _).usableValue hv, nofun⟩
  · unfold substitutedSource at substituted
    split at substituted
    · cases substituted
    · obtain ⟨v, -, rfl⟩ := Option.map_eq_some_iff.1 substituted
      exact ⟨Effect.mapValue_clampMap _, nofun⟩
  · unfold scannedSource at scanned
    split at scanned
    · cases scanned
    · split at scanned <;> cases scanned
      exact ⟨Effect.mapValue_clampMap _, nofun⟩

theorem anchorAt_mem {anchors : List (Option Direct)} {e : Nat} {d : Direct} (h : anchorAt anchors e = some d) :
    some d ∈ anchors := by
  unfold anchorAt at h
  exact List.mem_of_getElem? (Option.join_eq_some_iff.1 h)

theorem anchorBelow_some {anchors : List (Option Direct)} {e : Nat} {x : Nat × Int}
    (h : anchorBelow anchors e = some x) : x.1 < e ∧ ∃ d, anchorAt anchors x.1 = some d ∧ d.value = x.2 := by
  induction e with
  | zero => cases h
  | succ e ih =>
    unfold anchorBelow at h
    split at h
    case h_1 d hd =>
      cases h
      exact ⟨Nat.lt_succ_self e, d, hd, rfl⟩
    case h_2 =>
      obtain ⟨below, anchor⟩ := ih h
      exact ⟨Nat.lt_succ_of_lt below, anchor⟩

theorem anchorAbove_some {anchors : List (Option Direct)} {e : Nat} {x : Nat × Int}
    (h : anchorAbove anchors e = some x) : e < x.1 ∧ ∃ d, anchorAt anchors x.1 = some d ∧ d.value = x.2 := by
  obtain ⟨j, hj, hx⟩ := List.exists_of_findSome?_eq_some h
  obtain ⟨d, hd, rfl⟩ := Option.map_eq_some_iff.1 hx
  simp only [List.mem_range'_1] at hj
  exact ⟨by omega, d, hd, rfl⟩

/-- Interpolation and extension draw on anchors alone (R77, R78). -/
theorem filled_inRange {maxGap : Nat} {anchors : List (Option Direct)}
    (h : ∀ d, some d ∈ anchors → MapValue d.value) {e : Nat} {v : Int} {q : Quality}
    (hf : filled maxGap anchors e = some (v, q)) : MapValue v ∧ q ≠ .empty := by
  have value {j : Nat} {w : Int} (ha : ∃ d, anchorAt anchors j = some d ∧ d.value = w) : MapValue w := by
    obtain ⟨d, hd, rfl⟩ := ha
    exact h d (anchorAt_mem hd)
  unfold filled at hf
  split at hf
  case h_1 low high hlow hhigh =>
    obtain ⟨below, hlow⟩ := anchorBelow_some hlow
    obtain ⟨above, hhigh⟩ := anchorAbove_some hhigh
    obtain ⟨atLeast, atMost⟩ := interpolated_between below above
    obtain ⟨lowMin, lowMax⟩ := value hlow
    obtain ⟨highMin, highMax⟩ := value hhigh
    split at hf <;> cases hf
    exact ⟨⟨(le_min lowMin highMin).trans atLeast, atMost.trans (max_le lowMax highMax)⟩, nofun⟩
  case h_2 low hlow _ =>
    split at hf <;> cases hf
    exact ⟨value (anchorBelow_some hlow).2, nofun⟩
  case h_3 high _ hhigh =>
    split at hf <;> cases hf
    exact ⟨value (anchorAbove_some hhigh).2, nofun⟩
  case h_4 => cases hf

theorem eligibleValue_inRange {c : CellRecord} (h : c.InRange) {v : Int} (hv : eligibleValue c = some v) :
    MapValue v := by
  unfold eligibleValue at hv
  split at hv
  · exact h.2 v hv
  · cases hv

theorem neighbourAt_inRange {s : State} (h : ∀ n, (s.cell n).InRange) {k : Nat} {d : Dims} {t e : Nat} {v : Int}
    (hv : neighbourAt s k d t e = some v) : MapValue v := by
  unfold neighbourAt at hv
  split at hv
  · exact eligibleValue_inRange (h _) hv
  · cases hv

theorem neighbourValue_inRange {x y : Option Int} (hx : ∀ v, x = some v → MapValue v)
    (hy : ∀ v, y = some v → MapValue v) {v : Int} (hv : neighbourValue x y = some v) : MapValue v := by
  unfold neighbourValue at hv
  split at hv
  case h_1 a b =>
    cases hv
    obtain ⟨atLeast, atMost⟩ := mean_between a b
    obtain ⟨aMin, aMax⟩ := hx a rfl
    obtain ⟨bMin, bMax⟩ := hy b rfl
    exact ⟨(le_min aMin bMin).trans atLeast, atMost.trans (max_le aMax bMax)⟩
  case h_2 => exact hx v hv
  case h_3 => exact hy v hv
  case h_4 => cases hv

theorem neighbourFill_inRange {s : State} (h : ∀ n, (s.cell n).InRange) {k : Nat} {d : Dims} {t e : Nat} {v : Int}
    (hv : neighbourFill s k d t e = some v) : MapValue v := by
  refine neighbourValue_inRange (fun w hw => ?_) (fun w hw => neighbourAt_inRange h hw) hv
  split at hw
  · cases hw
  · exact neighbourAt_inRange h hw

theorem CellRecord.inRange_blank : CellRecord.blank.InRange := ⟨⟨fun _ => rfl, fun _ => rfl⟩, nofun⟩

theorem heldRecord_inRange (holdLimit : Nat) {c : CellRecord} (h : c.InRange) : (heldRecord holdLimit c).InRange := by
  unfold heldRecord
  split
  · exact CellRecord.inRange_blank
  case h_2 v hv =>
    refine ⟨⟨nofun, ?_⟩, ?_⟩
    · dsimp only
      split <;> nofun
    · rintro _ ⟨⟩
      exact h.2 v hv

/-- The five steps give a record in range (section 4.5). -/
theorem evaluateCell_inRange {s : State} (h : MapValuesInRange s) {anchors : List (Option Direct)}
    (ha : ∀ d, some d ∈ anchors → MapValue d.value ∧ d.quality ≠ .empty) (pass k : Nat) (d : Dims) (t e : Nat) :
    (evaluateCell s pass k d t anchors e).InRange := by
  unfold evaluateCell
  split
  case h_1 x hx =>
    obtain ⟨value, quality⟩ := ha x (anchorAt_mem hx)
    exact freshRecord_inRange pass value quality _
  split
  case h_1 v q hf =>
    obtain ⟨value, quality⟩ := filled_inRange (fun d hd => (ha d hd).1) hf
    exact freshRecord_inRange pass value quality _
  split
  case h_1 v hv => exact freshRecord_inRange pass (neighbourFill_inRange h.1 hv) (q := .neighbour) nofun none
  case h_2 => exact heldRecord_inRange _ (h.1 _)

theorem evaluateTube_inRange {s : State} (h : MapValuesInRange s) (pass k : Nat) (d : Dims) (t : Nat) :
    ∀ c ∈ evaluateTube s pass k d t, c.InRange := by
  intro c hc
  obtain ⟨e, -, rfl⟩ := List.mem_map.1 hc
  refine evaluateCell_inRange h (fun x hx => ?_) pass k d t e
  obtain ⟨n, -, hn⟩ := List.mem_map.1 hx
  exact directSource_inRange h.2 hn

/-! ### The tube write -/

theorem cell_writeCell {s : State} (h : Table.rising s.map.cells = true) (c : CoilDef) (pass : Nat)
    (x : Nat × CellRecord) (n : Nat) : (writeCell c pass s x).cell n = if n = x.1 then x.2 else s.cell n :=
  Table.get_put CellRecord.blank h x.1 x.2 n

theorem foldl_writeCell_inRange (c : CoilDef) (pass : Nat) {xs : List (Nat × CellRecord)}
    (hx : ∀ x ∈ xs, x.2.InRange) {s : State} (hc : s.map.Canonical) (hs : ∀ n, (s.cell n).InRange) (n : Nat) :
    ((xs.foldl (writeCell c pass) s).cell n).InRange := by
  induction xs generalizing s with
  | nil => exact hs n
  | cons x xs ih =>
    obtain ⟨first, rest⟩ := List.forall_mem_cons.1 hx
    refine ih rest (hc.writeCell c pass x) fun m => ?_
    rw [cell_writeCell hc.1.1]
    split
    · exact first
    · exact hs m

theorem writeTube_inRange {s : State} (hc : s.map.Canonical) (h : MapValuesInRange s) (pass k : Nat) (c : CoilDef)
    (tube n : Nat) : ((writeTube pass k c tube s).cell n).InRange :=
  foldl_writeCell_inRange c pass (fun x hx => evaluateTube_inRange h pass k c.dims tube x.2 (List.of_mem_zip hx).2)
    hc h.1 n

/-! ### The invariant -/

theorem MapValuesInRange.setChannel {s : State} (h : MapValuesInRange s) (hc : BlocksCanonical s) (n : Nat)
    {c : Channel} (hr : c.InRange) : MapValuesInRange (s.setChannel n c) := by
  refine ⟨h.1, fun m => ?_⟩
  rw [channel_setChannel hc.acq.1.1]
  split
  · exact hr
  · exact h.2 m

theorem channel_load_inRange (x : ChannelImage) : x.load.InRange := ⟨nofun, nofun⟩

/-- What `f` makes of every entry is in range, and so is an Unused channel. -/
theorem channel_mapEntries_inRange {α : Type} (f : Nat → α → Channel) (channels : Table α)
    (hf : ∀ n c, Table.find channels n = some c → (f n c).InRange) (n : Nat) :
    (Table.get .unused (Table.mapEntries f channels) n).InRange := by
  rw [Table.get, Table.find_mapEntries]
  cases h : Table.find channels n with
  | none => exact Channel.inRange_unused
  | some c => exact hf n c h

theorem Effect.mapValuesInRange {loud : Bool} {s t : State} (h : Effect loud s t) :
    BlocksCanonical s → MapValuesInRange s → MapValuesInRange t := by
  induction h with
  | trans one _ first second => exact fun hc hs => second (one.blocksCanonical hc) (first hc hs)
  | loaded s =>
    exact fun _ _ =>
      ⟨fun _ => CellRecord.inRange_blank, channel_mapEntries_inRange _ _ fun _ x _ => channel_load_inRange x⟩
  | grow s =>
    refine fun _ hs => ⟨hs.1, channel_mapEntries_inRange (fun _ => Channel.grow) s.acq.channels fun n c hc => Channel.InRange.grow ?_⟩
    have := hs.2 n
    rwa [State.channel, Table.get, hc] at this
  | sample s n cfg j _ inRange =>
    exact fun hc hs => hs.setChannel hc n (Channel.InRange.sample
      (c := { s.channel n with stats := (s.channel n).stats.count j }) (hs.2 n) _ _ _ inRange)
  | clearCounters s n => exact fun hc hs => hs.setChannel hc n (hs.2 n)
  | configure s n cfg => exact fun hc hs => hs.setChannel hc n ((hs.2 n).configure cfg)
  | remove s n => exact fun hc hs => hs.setChannel hc n ⟨nofun, nofun⟩
  | retire s n => exact fun hc hs => hs.setChannel hc n ⟨(hs.2 n).1, nofun⟩
  | restore s n => exact fun hc hs => hs.setChannel hc n ⟨nofun, nofun⟩
  | mapCounters s x kept =>
    rw [kept]
    exact fun _ hs => hs
  | startMapping => exact fun _ hs => ⟨fun _ => CellRecord.inRange_blank, hs.2⟩
  | writeTube s p c =>
    intro hc hs
    have cells := writeTube_inRange hc.map hs p.number p.coil c p.tube
    rw [writeTube_frame] at cells ⊢
    exact ⟨cells, hs.2⟩
  | stop s walking =>
    refine fun _ hs => ⟨fun n => ?_, hs.2⟩
    have cells : (stoppedBlocks walking s).map.cells = s.map.cells := by
      simp only [stoppedBlocks, abandonedMap]
      split <;> rfl
    rw [State.cell, cells]
    exact hs.1 n
  | evaluate s pass endUptime =>
    rw [evaluatePass_frame]
    exact fun _ hs => hs
  | copyCell s clearing n =>
    rw [copyCell_frame]
    exact fun _ hs => hs
  | editCoil s k entry =>
    refine fun _ hs => ⟨fun n => ?_, hs.2⟩
    show (Table.get .blank (Table.restrict _ s.map.cells) n).InRange
    rw [Table.get, Table.find_restrict]
    split
    · exact hs.1 n
    · exact CellRecord.inRange_blank
  | _ => exact fun _ hs => hs

/-- Settles O55: every effect of a step keeps cells and channels in range. -/
theorem mapValuesStayInRange : Obligations.MapValuesStayInRange := by
  unfold Obligations.MapValuesStayInRange
  exact fun s t hc hs h => (step_effect h).mapValuesInRange ((tablesCanonical_iff s).1 hc) hs

end Sys2Proof.Machine

/-! ## What every step keeps of the assignments (R89, R93) -/

namespace Sys2Proof.Machine

/-! ### Channels: configured exactly while not Unused (R29, R30) -/

/-- A channel record holds a configuration exactly while it is not Unused (R29). -/
def Channel.Honest (c : Channel) : Prop := c.state = .unused ↔ c.config = none

/-- A channel that is in use stays so, with its configuration. -/
def Channel.StaysUsed (c d : Channel) : Prop := c.state ≠ .unused → d.state ≠ .unused ∧ d.config = c.config

theorem Channel.staysUsed_accept (v : Int) (uptime : Nat) (c : Channel) : c.StaysUsed (c.accept v uptime) :=
  fun _ => ⟨nofun, rfl⟩

theorem Channel.staysUsed_emptySample (failTime : Nat) (c : Channel) : c.StaysUsed (c.emptySample failTime).1 := by
  intro used
  unfold Channel.emptySample
  dsimp only
  split
  · exact ⟨nofun, rfl⟩
  · exact ⟨used, rfl⟩

theorem Channel.staysUsed_weigh (confirmCount uptime : Nat) (k : Candidate) (c : Channel) :
    c.StaysUsed (c.weigh confirmCount uptime k).1 := by
  intro used
  unfold Channel.weigh
  split <;> exact ⟨nofun, rfl⟩

theorem Channel.staysUsed_healthyReading (p : Parameters) (uptime maxStep : Nat) (v : Int) (c : Channel) :
    c.StaysUsed (c.healthyReading p uptime maxStep v).1 := by
  unfold Channel.healthyReading
  split
  · exact staysUsed_accept v uptime c
  split
  · exact staysUsed_accept v uptime c
  · exact staysUsed_weigh _ _ _ c.countStep

theorem Channel.staysUsed_suspectReading (p : Parameters) (uptime maxStep : Nat) (v : Int) (c : Channel) :
    c.StaysUsed (c.suspectReading p uptime maxStep v).1 := by
  unfold Channel.suspectReading
  dsimp only
  split
  · exact staysUsed_accept v uptime c
  split
  · exact staysUsed_weigh _ _ _ c
  · exact staysUsed_weigh _ _ _ c.countStep

theorem Channel.StaysUsed.ageSuspect {c : Channel} {r : Sampled} (h : c.StaysUsed r.1) (failTime : Nat) :
    c.StaysUsed (ageSuspect failTime r).1 := by
  intro used
  obtain ⟨state, config⟩ := h used
  unfold Machine.ageSuspect
  split
  · dsimp only
    split
    · exact ⟨nofun, config⟩
    · exact ⟨state, config⟩
  · exact ⟨state, config⟩

/-- A sample moves a channel among the states of one in use (R31 to R35). -/
theorem Channel.staysUsed_sample (p : Parameters) (uptime maxStep : Nat) (j : Judgement) (c : Channel) :
    c.StaysUsed (c.sample p uptime maxStep j).1 := by
  unfold Channel.sample
  split
  case h_2 => exact staysUsed_accept _ uptime c
  case h_3 | h_6 | h_9 => exact fun _ => ⟨nofun, rfl⟩
  case h_4 | h_7 => exact staysUsed_emptySample _ c
  case h_5 v _ _ => exact staysUsed_healthyReading p uptime maxStep v c
  case h_8 v _ _ => exact (staysUsed_suspectReading p uptime maxStep v c).ageSuspect _
  case h_10 => exact Channel.StaysUsed.ageSuspect (r := (c.loseSample, [])) (fun used => ⟨used, rfl⟩) _
  all_goals exact fun used => ⟨used, rfl⟩

theorem Channel.configure_used (cfg : ChannelConfig) (c : Channel) :
    (c.configure cfg).state ≠ .unused ∧ (c.configure cfg).config = some cfg := by
  unfold Channel.configure
  split
  case h_1 h => simp [h]
  case h_2 h => simp [h]
  case h_3 => exact ⟨nofun, rfl⟩

/-! ### The dependence rule -/

/-- An alternate of channel `a` at cell `n` stands by the dependence rule (R93). -/
def Stands (coils : Table CoilDef) (primaries : Table Nat) (n a : Nat) : Prop :=
  (∃ p ∈ primaries, p.1 = n) ∧
    ∃ p ∈ primaries, p.2 = a ∧
      ∃ here there, placeOf (geometryOf coils) n = some here ∧ placeOf (geometryOf coils) p.1 = some there ∧
        there.coil = here.coil ∧ there.tube = here.tube ∧ there.elevation ≠ here.elevation

theorem stands_iff {s : State} {n a : Nat} (primary : (Table.find s.cfg.primaries n).isSome = true)
    (elsewhere : primaryElsewhereOnTube s n a = true) : Stands s.cfg.coils s.cfg.primaries n a := by
  obtain ⟨channel, hc⟩ := Option.isSome_iff_exists.1 primary
  refine ⟨⟨_, Table.find_mem hc, rfl⟩, ?_⟩
  unfold primaryElsewhereOnTube at elsewhere
  split at elsewhere
  · cases elsewhere
  case h_2 here hereIs =>
    simp only [List.any_eq_true, Bool.and_eq_true, decide_eq_true_eq] at elsewhere
    obtain ⟨p, mem, channel, place⟩ := elsewhere
    split at place
    case h_1 there thereIs =>
      obtain ⟨coil, tube, elevation⟩ := of_decide_eq_true place
      exact ⟨p, mem, channel, here, there, hereIs, thereIs, coil, tube, elevation⟩
    case h_2 => cases place

theorem stands_of_releaseCause {s : State} {n : Nat} {x : Alternate} (h : (releaseCause s n x).isNone = true) :
    Stands s.cfg.coils s.cfg.primaries n x.channel := by
  unfold releaseCause at h
  split at h
  · cases h
  case isFalse primary =>
    split at h
    case isTrue elsewhere => exact stands_iff (by simpa [Option.isSome_iff_ne_none] using primary) elsewhere
    case isFalse => cases h

/-- The dependence rule makes assignments obey that are configured and serve one cell each (R93). -/
theorem assignmentsObey_releaseDependents {s : State} {configured : Nat → Prop}
    (primaries : ∀ x ∈ s.cfg.primaries, configured x.2) (alternates : ∀ x ∈ s.cfg.alternates, configured x.2.channel)
    (onePrimary : ∀ x ∈ s.cfg.primaries, ∀ y ∈ s.cfg.primaries, x.2 = y.2 → x = y)
    (oneAlternate : ∀ x ∈ s.cfg.alternates, ∀ y ∈ s.cfg.alternates, x.2.channel = y.2.channel → x = y) :
    AssignmentsObey (releaseDependents s).cfg.coils (releaseDependents s).cfg.primaries
      (releaseDependents s).cfg.alternates configured := by
  refine ⟨primaries, fun x hx => alternates x (List.mem_filter.1 hx).1, onePrimary, fun x hx y hy => ?_, fun x hx => ?_⟩
  · exact oneAlternate x (List.mem_filter.1 hx).1 y (List.mem_filter.1 hy).1
  · exact stands_of_releaseCause (List.mem_filter.1 hx).2

/-! ### The invariant -/

theorem State.channel_honest {s : State} (h : ∀ x ∈ s.acq.channels, x.2.Honest) (n : Nat) :
    (s.channel n).Honest := by
  rw [State.channel, Table.get]
  cases hn : Table.find s.acq.channels n with
  | none => exact ⟨fun _ => rfl, fun _ => rfl⟩
  | some c => exact h _ (Table.find_mem hn)

theorem Table.mem_put {α : Type} [DecidableEq α] {b : α} {t : Table α} {k : Nat} {v : α} {x : Nat × α}
    (h : x ∈ Table.put b t k v) : x = (k, v) ∨ x ∈ t := by
  unfold Table.put at h
  split at h
  · exact .inr ((Table.erase_sublist t k).subset h)
  · exact Table.mem_insert h

theorem Table.find_isSome_of_mem {α : Type} {t : Table α} {x : Nat × α} (h : x ∈ t) :
    (Table.find t x.1).isSome = true := by
  induction t with
  | nil => cases h
  | cons y t ih =>
    rw [Table.find_cons]
    split
    · rfl
    · refine ih ((List.mem_cons.1 h).resolve_left ?_)
      rintro rfl
      contradiction

theorem AssignmentsObey.imp {coils : Table CoilDef} {primaries : Table Nat} {alternates : Table Alternate}
    {configured configured' : Nat → Prop} (h : AssignmentsObey coils primaries alternates configured)
    (hp : ∀ x ∈ primaries, configured x.2 → configured' x.2)
    (ha : ∀ x ∈ alternates, configured x.2.channel → configured' x.2.channel) :
    AssignmentsObey coils primaries alternates configured' := by
  obtain ⟨primariesUsed, alternatesUsed, rest⟩ := h
  exact ⟨fun x hx => hp x hx (primariesUsed x hx), fun x hx => ha x hx (alternatesUsed x hx), rest⟩

/-- A channel record may be replaced by one that is in use when it is, or when no cell is assigned the channel. -/
theorem AnchorsObey.setChannel {s : State} (h : AnchorsObey s) (n : Nat) {c : Channel} (honest : c.Honest)
    (used : c.state = .unused → (s.channel n).state = .unused ∨ (isPrimary s n = false ∧ isAlternate s n = false)) :
    AnchorsObey (s.setChannel n c) := by
  obtain ⟨channels, obey, images⟩ := h
  refine ⟨fun x hx => ?_, ?_, images⟩
  · obtain rfl | hx := Table.mem_put hx
    · exact honest
    · exact channels x hx
  have still (m : Nat) (hm : (s.channel m).state ≠ .unused) (assigned : isPrimary s m = true ∨ isAlternate s m = true) :
      ((s.setChannel n c).channel m).state ≠ .unused := by
    by_cases same : m = n
    · subst same
      have state : c.state ≠ .unused := fun state => by
        obtain h | ⟨noPrimary, noAlternate⟩ := used state
        · exact hm h
        · simp [noPrimary, noAlternate] at assigned
      have : (s.setChannel m c).channel m = c :=
        (Table.get_put_of_ne Channel.unused s.acq.channels m (fun h => state (congrArg Channel.state h)) m).trans
          (if_pos rfl)
      rwa [this]
    · have : (s.setChannel n c).channel m = s.channel m := Table.get_put_ne Channel.unused s.acq.channels c same
      rwa [this]
  exact obey.imp
    (fun x hx hm => still x.2 hm (.inl (List.any_eq_true.2 ⟨x, hx, decide_eq_true rfl⟩)))
    (fun x hx hm => still x.2.channel hm (.inr (List.any_eq_true.2 ⟨x, hx, decide_eq_true rfl⟩)))

/-- A record that stays in use may be replaced. -/
theorem AnchorsObey.setChannel_staysUsed {s : State} (h : AnchorsObey s) (n : Nat) {c : Channel}
    (used : (s.channel n).state ≠ .unused) (stays : (s.channel n).StaysUsed c) : AnchorsObey (s.setChannel n c) := by
  obtain ⟨state, config⟩ := stays used
  have configured : (s.channel n).config ≠ none := fun none => used ((State.channel_honest h.1 n).2 none)
  refine h.setChannel n ⟨fun h => absurd h state, fun none => absurd (config.symm.trans none) configured⟩ ?_
  exact fun h => absurd h state

/-- The image in force after a reset obeys with the channels loaded from it (R89, R184). -/
theorem anchorsObey_loaded {s : State} (h : AnchorsObey s) (external strap1 strap0 : Bool) :
    AnchorsObey (loaded external strap1 strap0 s) := by
  obtain ⟨-, -, images⟩ := h
  have image : AssignmentsObey ((readConfigImage (cutSave s.nvs).configStore).getD .unconfigured).coils
      ((readConfigImage (cutSave s.nvs).configStore).getD .unconfigured).primaries
      ((readConfigImage (cutSave s.nvs).configStore).getD .unconfigured).alternates
      fun n => ∃ c, (n, c) ∈ ((readConfigImage (cutSave s.nvs).configStore).getD .unconfigured).channels := by
    cases hi : readConfigImage (cutSave s.nvs).configStore with
    | none => exact ⟨nofun, nofun, nofun, nofun, nofun⟩
    | some y => exact images y (readConfigImage_mem hi)
  have load_honest (x : ChannelImage) : x.load.state ≠ .unused ∧ x.load.config ≠ none := by
    refine ⟨?_, nofun⟩
    unfold ChannelImage.load
    cases x.retired <;> nofun
  have used (n : Nat)
      (hn : ∃ c, (n, c) ∈ ((readConfigImage (cutSave s.nvs).configStore).getD .unconfigured).channels) :
      ((loaded external strap1 strap0 s).channel n).state ≠ .unused := by
    obtain ⟨c, hc⟩ := hn
    have found := Table.find_isSome_of_mem hc
    rw [State.channel, Table.get]
    show ((Table.find (Table.mapEntries (fun _ x => ChannelImage.load x) _) n).getD .unused).state ≠ .unused
    rw [Table.find_mapEntries]
    obtain ⟨d, hd⟩ := Option.isSome_iff_exists.1 found
    rw [hd]
    exact (load_honest d).1
  refine ⟨?_, image.imp (fun x _ => used x.2) (fun x _ => used x.2.channel), fun x hx =>
    images x ((imagesWithin_loaded external strap1 strap0 s).1 x hx)⟩
  intro x hx
  obtain ⟨y, -, rfl⟩ := List.mem_map.1 hx
  obtain ⟨state, config⟩ := load_honest y.2
  exact ⟨fun h => absurd h state, fun h => absurd h config⟩

/-- The configuration captured obeys with the channels it captures (R89, R180). -/
theorem captureConfig_obeys {s : State} (h : AnchorsObey s) :
    AssignmentsObey (captureConfig s).coils (captureConfig s).primaries (captureConfig s).alternates
      fun n => ∃ c, (n, c) ∈ (captureConfig s).channels := by
  obtain ⟨channels, obey, -⟩ := h
  have captured (n : Nat) (used : (s.channel n).state ≠ .unused) : ∃ c, (n, c) ∈ (captureConfig s).channels := by
    cases hn : Table.find s.acq.channels n with
    | none =>
      rw [State.channel, Table.get, hn] at used
      exact absurd rfl used
    | some c =>
      have mem := Table.find_mem hn
      have same : s.channel n = c := by rw [State.channel, Table.get, hn]; rfl
      have configured : c.config ≠ none := fun none => used (same ▸ (channels _ mem).2 none)
      obtain ⟨cfg, hcfg⟩ := Option.ne_none_iff_exists'.1 configured
      exact ⟨_, List.mem_filterMap.2 ⟨_, mem, by rw [hcfg]; rfl⟩⟩
  exact obey.imp (fun x _ => captured x.2) (fun x _ => captured x.2.channel)

theorem movePrimary_one {primaries : Table Nat} (h : ∀ x ∈ primaries, ∀ y ∈ primaries, x.2 = y.2 → x = y)
    (cell channel : Nat) :
    ∀ x ∈ movePrimary primaries cell channel, ∀ y ∈ movePrimary primaries cell channel, x.2 = y.2 → x = y := by
  have member (x : Nat × Nat) (hx : x ∈ movePrimary primaries cell channel) :
      x = (cell, channel) ∨ (x ∈ primaries ∧ x.2 ≠ channel) := by
    refine (Table.mem_insert hx).imp id fun hx => ?_
    obtain ⟨mem, other⟩ := List.mem_filter.1 hx
    exact ⟨mem, of_decide_eq_true other⟩
  intro x hx y hy same
  obtain rfl | ⟨memX, otherX⟩ := member x hx <;> obtain rfl | ⟨memY, otherY⟩ := member y hy
  · rfl
  · exact absurd same.symm otherY
  · exact absurd same otherX
  · exact h x memX y memY same

theorem Effect.anchorsObey {loud : Bool} {s t : State} (h : Effect loud s t) : AnchorsObey s → AnchorsObey t := by
  induction h with
  | trans _ _ first second => exact fun hs => second (first hs)
  | loaded s external strap1 strap0 => exact fun hs => anchorsObey_loaded hs external strap1 strap0
  | grow s =>
    rintro ⟨channels, obey, images⟩
    have state (n : Nat) : ((s.withAcq { s.acq with channels := Table.mapEntries (fun _ => Channel.grow) s.acq.channels
        }).channel n).state = (s.channel n).state := by
      show ((Table.find (Table.mapEntries (fun _ => Channel.grow) s.acq.channels) n).getD .unused).state = _
      rw [Table.find_mapEntries, State.channel, Table.get]
      cases Table.find s.acq.channels n <;> rfl
    refine ⟨fun x hx => ?_, obey.imp (fun x _ => ?_) (fun x _ => ?_), images⟩
    · obtain ⟨y, hy, rfl⟩ := List.mem_map.1 hx
      exact channels y hy
    · exact fun used => (state x.2).symm ▸ used
    · exact fun used => (state x.2.channel).symm ▸ used
  | sample s n cfg j configured =>
    intro hs
    have used : (s.channel n).state ≠ .unused := fun h =>
      nomatch configured.symm.trans ((State.channel_honest hs.1 n).1 h)
    exact hs.setChannel_staysUsed n used
      (Channel.staysUsed_sample _ _ _ _ { s.channel n with stats := (s.channel n).stats.count j })
  | clearCounters s n => exact fun hs => hs.setChannel n (State.channel_honest hs.1 n) .inl
  | configure s n cfg =>
    intro hs
    obtain ⟨state, config⟩ := Channel.configure_used cfg (s.channel n)
    exact hs.setChannel n ⟨fun h => absurd h state, fun h => nomatch config.symm.trans h⟩ fun h => absurd h state
  | remove s n noPrimary noAlternate =>
    exact fun hs => hs.setChannel n ⟨fun _ => rfl, fun _ => rfl⟩ fun _ => .inr ⟨noPrimary, noAlternate⟩
  | retire s n used => exact fun hs => hs.setChannel_staysUsed n used fun _ => ⟨nofun, rfl⟩
  | restore s n used => exact fun hs => hs.setChannel_staysUsed n used fun _ => ⟨nofun, rfl⟩
  | writeTube s p c =>
    rw [writeTube_frame]
    exact fun hs => hs
  | evaluate s pass endUptime =>
    rw [evaluatePass_frame]
    exact fun hs => hs
  | copyCell s clearing n =>
    rw [copyCell_frame]
    exact fun hs => hs
  | settings s x kept =>
    rw [kept]
    exact fun hs => hs
  | editCoil s k entry =>
    rintro ⟨channels, ⟨primaries, alternates, onePrimary, oneAlternate, -⟩, images⟩
    have within {α : Type} {keep : Nat → Bool} {t : Table α} {x : Nat × α} (hx : x ∈ Table.restrict keep t) : x ∈ t :=
      (List.mem_filter.1 hx).1
    exact ⟨channels,
      assignmentsObey_releaseDependents (fun x hx => primaries x (within hx)) (fun x hx => alternates x (within hx))
        (fun x hx y hy => onePrimary x (within hx) y (within hy))
        (fun x hx y hy => oneAlternate x (within hx) y (within hy)),
      images⟩
  | assignPrimary s cell channel inUse used =>
    rintro ⟨channels, ⟨primaries, alternates, onePrimary, oneAlternate, -⟩, images⟩
    refine ⟨channels,
      assignmentsObey_releaseDependents (s := withPrimaries s (movePrimary s.cfg.primaries cell channel))
        (fun x hx => ?_) alternates (movePrimary_one onePrimary cell channel) oneAlternate,
      images⟩
    obtain rfl | hx := Table.mem_insert hx
    · exact used
    · exact primaries x (List.mem_filter.1 hx).1
  | releasePrimary s cell =>
    rintro ⟨channels, ⟨primaries, alternates, onePrimary, oneAlternate, -⟩, images⟩
    have within := (Table.erase_sublist s.cfg.primaries cell).subset
    exact ⟨channels,
      assignmentsObey_releaseDependents (s := withPrimaries s (Table.erase s.cfg.primaries cell))
        (fun x hx => primaries x (within hx)) alternates
        (fun x hx y hy => onePrimary x (within hx) y (within hy)) oneAlternate,
      images⟩
  | assignAlternate s cell channel offset inUse primary used free elsewhere =>
    rintro ⟨channels, ⟨primaries, alternates, onePrimary, oneAlternate, stands⟩, images⟩
    have other (x : Nat × Alternate) (hx : x ∈ s.cfg.alternates) : x.2.channel ≠ channel := by
      have := List.any_eq_false.1 free x hx
      simpa using this
    have primary : (Table.find s.cfg.primaries cell).isSome = true := by
      unfold primaryOutOfService at primary
      cases hp : Table.find s.cfg.primaries cell with
      | none => rw [hp] at primary; cases primary
      | some => rfl
    refine ⟨channels, ⟨primaries, fun x hx => ?_, onePrimary, fun x hx y hy same => ?_, fun x hx => ?_⟩, images⟩
    · obtain rfl | hx := Table.mem_insert hx
      · exact used
      · exact alternates x hx
    · obtain rfl | hx := Table.mem_insert hx <;> obtain rfl | hy := Table.mem_insert hy
      · rfl
      · exact absurd same.symm (other y hy)
      · exact absurd same (other x hx)
      · exact oneAlternate x hx y hy same
    · obtain rfl | hx := Table.mem_insert hx
      · exact stands_iff primary elsewhere
      · exact stands x hx
  | releaseAlternate s cell =>
    rintro ⟨channels, ⟨primaries, alternates, onePrimary, oneAlternate, stands⟩, images⟩
    have within := (Table.erase_sublist s.cfg.alternates cell).subset
    exact ⟨channels,
      ⟨primaries, fun x hx => alternates x (within hx), onePrimary,
        fun x hx y hy => oneAlternate x (within hx) y (within hy), fun x hx => stands x (within hx)⟩,
      images⟩
  | saveConfig s l =>
    intro hs
    refine ⟨hs.1, hs.2.1, fun x hx => ?_⟩
    obtain rfl | hx := configImages_saveConfig s l x hx
    · exact captureConfig_obeys hs
    · exact hs.2.2 x hx
  | saveExposure s l =>
    exact fun ⟨channels, obey, images⟩ =>
      ⟨channels, obey, fun x hx => images x (configImages_saveExposure s l x hx)⟩
  | saveEnds s agrees x flying =>
    exact fun ⟨channels, obey, images⟩ =>
      ⟨channels, obey, fun y hy => images y ((imagesWithin_saveEnds flying agrees).1 y hy)⟩
  | _ => exact fun hs => hs

/-- Settles O56: every effect of a step keeps the assignments obedient. -/
theorem assignmentsStayObedient : Obligations.AssignmentsStayObedient := by
  unfold Obligations.AssignmentsStayObedient
  exact fun s t hs h => (step_effect h).anchorsObey hs

end Sys2Proof.Machine

/-! ## Cell numbers and places (R2, R3) -/

namespace Sys2Proof.Machine

/-- A place of a geometry is named by a number below the total. -/
theorem placeOf_lt_total {g : Geometry} {n : Nat} {p : Place} (h : placeOf g n = some p) : n < cellTotal g := by
  induction g generalizing n with
  | nil => cases h
  | cons x g ih =>
    unfold placeOf at h
    unfold cellTotal
    split at h
    · omega
    · have := ih h
      omega

theorem placeOf_eq_none_iff (g : Geometry) (n : Nat) : placeOf g n = none ↔ cellTotal g ≤ n := by
  constructor
  · intro h
    by_contra! below
    obtain ⟨p, hp⟩ := placeOf_inUse below
    simp [hp] at h
  · intro above
    by_contra some
    obtain ⟨p, hp⟩ := Option.ne_none_iff_exists'.1 some
    have := placeOf_lt_total hp
    omega

/-- A number's place, when it has one: a coil listed, and a tube and an elevation that the coil has (R3). -/
theorem placeOf_eq_some_iff {g : Geometry} (hg : Table.rising g = true) (n : Nat) (p : Place) :
    placeOf g n = some p ↔
      ∃ d, Table.find g p.coil = some d ∧ p.tube < d.tubes ∧ p.elevation < d.elevations ∧
        n = cellNumber g p.coil d.elevations p.tube p.elevation := by
  induction g generalizing n with
  | nil => simp [placeOf]
  | cons x g ih =>
    obtain ⟨j, d⟩ := x
    obtain ⟨above, rest⟩ := (Table.rising_cons j d g).1 hg
    simp only [placeOf, cellNumber, baseCell_cons, Table.find_cons]
    split
    case isTrue below =>
      constructor
      · rintro ⟨⟩
        have positive : 0 < d.elevations := by
          rcases Nat.eq_zero_or_pos d.elevations with h | h
          · simp [Dims.cells, h] at below
          · exact h
        refine ⟨d, if_pos rfl, Nat.div_lt_of_lt_mul (by rwa [Nat.mul_comm]), Nat.mod_lt _ positive, ?_⟩
        rw [if_neg (Nat.lt_irrefl j), baseCell_eq_zero_of_lt above]
        simp only [Nat.zero_add]
        exact (Nat.div_add_mod' n d.elevations).symm
      · rintro ⟨d', found, tube, elevation, rfl⟩
        split at found
        case isTrue same =>
          cases found
          subst same
          rw [if_neg (Nat.lt_irrefl _), baseCell_eq_zero_of_lt above]
          simp only [Nat.zero_add]
          rw [Nat.mul_comm, Nat.mul_add_div (by omega), Nat.mul_add_mod, Nat.div_eq_of_lt elevation,
            Nat.mod_eq_of_lt elevation, Nat.add_zero]
        case isFalse =>
          rw [if_pos (above _ (Table.find_mem found))] at below
          omega
    case isFalse beyond =>
      rw [ih rest]
      constructor
      · rintro ⟨d', found, tube, elevation, number⟩
        have later := above _ (Table.find_mem found)
        refine ⟨d', by rw [if_neg (Nat.ne_of_lt later), found], tube, elevation, ?_⟩
        simp only [cellNumber] at number
        rw [if_pos later]
        omega
      · rintro ⟨d', found, tube, elevation, number⟩
        split at found
        case isTrue same =>
          cases found
          subst same
          rw [if_neg (Nat.lt_irrefl _), baseCell_eq_zero_of_lt above] at number
          have : (p.tube + 1) * d.elevations ≤ d.tubes * d.elevations := Nat.mul_le_mul_right _ tube
          rw [Nat.succ_mul] at this
          unfold Dims.cells at beyond
          omega
        case isFalse =>
          rw [if_pos (above _ (Table.find_mem found))] at number
          exact ⟨d', found, tube, elevation, by simp only [cellNumber]; omega⟩

/-- Settles O41: a number's place is the one whose number it is. -/
theorem cellsNumberPlaces : Obligations.CellsNumberPlaces := by
  unfold Obligations.CellsNumberPlaces
  intro g hg
  refine ⟨fun n hn => ?_, fun n => (placeOf_eq_none_iff g n).2, fun k d t e found tube elevation => ?_⟩
  · obtain ⟨p, hp⟩ := placeOf_inUse hn
    obtain ⟨d, found, tube, elevation, number⟩ := (placeOf_eq_some_iff hg n p).1 hp
    exact ⟨p, d, hp, found, tube, elevation, number.symm⟩
  · exact (placeOf_eq_some_iff hg _ ⟨k, t, e⟩).2 ⟨d, found, tube, elevation, rfl⟩

end Sys2Proof.Machine

/-! ## What every step keeps of cells, walk and geometry (R1 to R3, R9, R16, R65 to R73) -/

namespace Sys2Proof.Machine

/-! ### Tables -/

theorem Table.find_eq_none_of_sublist {α : Type} {t u : Table α} (h : u.Sublist t) {n : Nat}
    (hn : Table.find t n = none) : Table.find u n = none := by
  cases hu : Table.find u n with
  | none => rfl
  | some v =>
    have := Table.find_isSome_of_mem (h.subset (Table.find_mem hu))
    simp [hn] at this

theorem Table.find_eq_none_of_below {α : Type} {b n : Nat} {t : Table α} (h : Table.below b t = true) (hn : b ≤ n) :
    Table.find t n = none := by
  cases hf : Table.find t n with
  | none => rfl
  | some v =>
    have : n < b := of_decide_eq_true (List.all_eq_true.1 h _ (Table.find_mem hf))
    omega

theorem Table.below_of_find_none {α : Type} {b : Nat} {t : Table α} (h : ∀ n, b ≤ n → Table.find t n = none) :
    Table.below b t = true := by
  refine List.all_eq_true.2 fun x hx => decide_eq_true ?_
  by_contra! beyond
  have := Table.find_isSome_of_mem hx
  simp [h x.1 beyond] at this

theorem Table.get_zero_of_sublist {t u : Table Nat} (h : u.Sublist t) (ht : ExposureCanonical t) {n : Nat}
    (hn : Table.get 0 t n = 0) : Table.get 0 u n = 0 := by
  have none : Table.find t n = none := by
    cases hf : Table.find t n with
    | none => rfl
    | some v =>
      have positive : v ≠ 0 := (Table.noBlank_iff 0 t).1 ht.2 _ (Table.find_mem hf)
      exact absurd (by simpa [Table.get, hf] using hn) positive
  rw [Table.get, Table.find_eq_none_of_sublist h none]
  rfl

theorem Table.find_set_ne {α : Type} (t : Table α) {k n : Nat} (v : Option α) (h : n ≠ k) :
    Table.find (Table.set t k v) n = Table.find t n := by
  cases v with
  | none => exact Table.find_erase_ne t h
  | some v => exact (Table.find_insert t k v n).trans (if_neg h)

/-! ### Geometry -/

theorem State.rising_geometry {s : State} (h : Table.rising s.cfg.coils = true) : Table.rising s.geometry = true :=
  Table.rising_mapEntries h fun _ c => c.dims

theorem State.find_geometry (s : State) (k : Nat) :
    Table.find s.geometry k = (s.coil k).map CoilDef.dims :=
  Table.find_mapEntries (fun _ => CoilDef.dims) s.cfg.coils k

/-- A place of a Defined coil is a cell in use (R3). -/
theorem cellNumber_lt_total {s : State} (h : Table.rising s.cfg.coils = true) {k t e : Nat} {c : CoilDef}
    (hc : s.coil k = some c) (ht : t < c.tubes) (he : e < c.elevations) :
    cellNumber s.geometry k c.elevations t e < s.cellTotal := by
  refine placeOf_lt_total (p := ⟨k, t, e⟩) ((placeOf_eq_some_iff (State.rising_geometry h) _ _).2 ⟨c.dims, ?_, ht, he, rfl⟩)
  rw [State.find_geometry, hc]
  rfl

theorem mem_tubeCells (g : Geometry) (k elevations t n : Nat) :
    n ∈ tubeCells g k elevations t ↔ ∃ e < elevations, n = cellNumber g k elevations t e := by
  simp only [tubeCells, List.mem_range'_1, cellNumber, Nat.add_zero]
  constructor
  · rintro ⟨atLeast, below⟩
    exact ⟨n - (baseCell g k + t * elevations), by omega, by omega⟩
  · rintro ⟨e, he, rfl⟩
    omega

theorem cellTotal_le_of_sublist {g g' : Geometry} (h : g'.Sublist g) : cellTotal g' ≤ cellTotal g := by
  induction h with
  | slnil => exact Nat.le_refl _
  | cons x _ ih => exact ih.trans (Nat.le_add_left _ _)
  | cons_cons x _ ih => exact Nat.add_le_add_left ih _

/-- A kept cell is in use in the new geometry (R7). -/
theorem lt_total_of_cellKept {old new : Geometry} {n : Nat} (h : cellKept old new n = true) : n < cellTotal new := by
  unfold cellKept at h
  split at h
  case h_1 q _ hq => exact placeOf_lt_total hq
  case h_2 => cases h

theorem find_restrict_cellKept {α : Type} {old new : Geometry} (t : Table α) {n : Nat} (h : cellTotal new ≤ n) :
    Table.find (Table.restrict (cellKept old new) t) n = none := by
  rw [Table.find_restrict, if_neg]
  intro kept
  have := lt_total_of_cellKept kept
  omega

/-- The tube after one is tube 0 of a Defined coil, or the next of the same coil (R73). -/
theorem tubeAfter_mem {g : Geometry} {k t j u : Nat} (h : tubeAfter g k t = some (j, u)) :
    (∃ d, Table.find g k = some d ∧ j = k ∧ u = t + 1 ∧ u < d.tubes) ∨ ((∃ d, (j, d) ∈ g) ∧ u = 0) := by
  have next (h : (coilAfter g k).map (fun j => (j, 0)) = some (j, u)) : (∃ d, (j, d) ∈ g) ∧ u = 0 := by
    obtain ⟨i, hi, ⟨⟩⟩ := Option.map_eq_some_iff.1 h
    obtain ⟨x, hx, rfl⟩ := Option.map_eq_some_iff.1 hi
    exact ⟨⟨x.2, List.mem_of_find?_eq_some hx⟩, rfl⟩
  unfold tubeAfter at h
  split at h
  case h_1 d hd =>
    split at h
    case isTrue below =>
      cases h
      exact .inl ⟨d, hd, rfl, rfl, below⟩
    case isFalse => exact .inr (next h)
  case h_2 => exact .inr (next h)

theorem CoilsFit.coil {s : State} (h : CoilsFit s.cfg.coils) {k : Nat} {c : CoilDef} (hc : s.coil k = some c) :
    k < 8 ∧ 1 ≤ c.tubes ∧ c.tubes ≤ 64 ∧ 1 ≤ c.elevations ∧ c.elevations ≤ 8 := by
  obtain ⟨-, below, sizes, -⟩ := h
  have mem := Table.find_mem hc
  exact ⟨of_decide_eq_true (List.all_eq_true.1 below _ mem), sizes _ mem⟩

/-- A tube numbered 0 of a coil listed is a tube of it. -/
theorem CoilsFit.firstTube {s : State} (h : CoilsFit s.cfg.coils) {k : Nat} {d : Dims} (hd : (k, d) ∈ s.geometry) :
    ∃ c, s.coil k = some c ∧ 0 < c.tubes := by
  obtain ⟨x, hx, ⟨⟩⟩ := List.mem_map.1 hd
  exact ⟨x.2, (Table.find_eq_some_iff h.1 _ _).2 hx, (h.2.2.1 x hx).1⟩

theorem CoilsFit.nil : CoilsFit [] := ⟨rfl, rfl, nofun, Nat.zero_le _⟩

theorem CoilsFit.set {coils : Table CoilDef} (h : CoilsFit coils) {k : Nat} (hk : k ≤ 7) {entry : Option CoilDef}
    (size : ∀ c, entry = some c → 1 ≤ c.tubes ∧ c.tubes ≤ 64 ∧ 1 ≤ c.elevations ∧ c.elevations ≤ 8)
    (room : ∀ c, entry = some c → cellTotal (geometryOf (Table.insert coils k c)) ≤ 2048) :
    CoilsFit (Table.set coils k entry) := by
  obtain ⟨rising, below, sizes, total⟩ := h
  refine ⟨Table.rising_set rising k entry, ?_⟩
  cases entry with
  | none =>
    have within := Table.erase_sublist coils k
    refine ⟨List.all_eq_true.2 fun x hx => List.all_eq_true.1 below x (within.subset hx),
      fun x hx => sizes x (within.subset hx), ?_⟩
    exact (cellTotal_le_of_sublist (within.map _)).trans total
  | some c =>
    refine ⟨List.all_eq_true.2 fun x hx => ?_, fun x hx => ?_, room c rfl⟩
    · obtain rfl | hx := Table.mem_insert hx
      · exact decide_eq_true (Nat.lt_succ_of_le hk)
      · exact List.all_eq_true.1 below x hx
    · obtain rfl | hx := Table.mem_insert hx
      · exact size c rfl
      · exact sizes x hx

/-! ### Zones and their cells -/

theorem ZonesFit.zone {s : State} (h : ZonesFit s.cfg.coils s.alm.zones) {n : Nat} {z : Zone}
    (hz : s.zone n = some z) :
    ∃ c, s.coil z.coil = some c ∧ z.lowTube ≤ z.highTube ∧ z.highTube < c.tubes ∧
      z.lowElevation ≤ z.highElevation ∧ z.highElevation < c.elevations := (h _ (Table.find_mem hz)).2

theorem mem_zoneCells {s : State} {z : Zone} {c : CoilDef} (hc : s.coil z.coil = some c) (n : Nat) :
    n ∈ zoneCells s z ↔
      ∃ t e, (z.lowTube ≤ t ∧ t ≤ z.highTube) ∧ (z.lowElevation ≤ e ∧ e ≤ z.highElevation) ∧
        n = cellNumber s.geometry z.coil c.elevations t e := by
  simp only [zoneCells, hc, List.mem_flatMap, List.mem_range'_1, Zone.tubeSpan, Zone.elevationSpan, cellNumber]
  constructor
  · rintro ⟨t, tube, number⟩
    exact ⟨t, n - (baseCell s.geometry z.coil + t * c.elevations), by omega, by omega, by omega⟩
  · rintro ⟨t, e, tube, elevation, rfl⟩
    exact ⟨t, by omega, by omega⟩

/-- The zone cell list is in ascending order (R119). -/
theorem zoneCells_ascending (s : State) (z : Zone) {c : CoilDef} (hc : s.coil z.coil = some c)
    (inside : z.highElevation < c.elevations) : (zoneCells s z).Pairwise (· < ·) := by
  simp only [zoneCells, hc]
  refine List.pairwise_flatMap.2 ⟨fun t _ => List.pairwise_lt_range', ?_⟩
  refine List.Pairwise.imp (fun {t u} (tu : t < u) n hn m hm => ?_) List.pairwise_lt_range'
  simp only [List.mem_range'_1, cellNumber, Zone.elevationSpan] at hn hm
  have : (t + 1) * c.elevations ≤ u * c.elevations := Nat.mul_le_mul_right _ tu
  rw [Nat.succ_mul] at this
  omega

theorem zoneCells_inUse {s : State} (h : Table.rising s.cfg.coils = true) {z : Zone} {c : CoilDef}
    (hc : s.coil z.coil = some c) (tubes : z.highTube < c.tubes) (elevations : z.highElevation < c.elevations) :
    ∀ n ∈ zoneCells s z, n < s.cellTotal := by
  intro n hn
  obtain ⟨t, e, tube, elevation, rfl⟩ := (mem_zoneCells hc n).1 hn
  exact cellNumber_lt_total h hc (by omega) (by omega)

theorem foldl_resetZone_zones (lost : List Nat) (x : AlarmUnit) : (lost.foldl resetZone x).zones = x.zones := by
  induction lost generalizing x with
  | nil => rfl
  | cons n lost ih => exact ih _

theorem zonesFit_dropZones {coils old : Table CoilDef} {x : AlarmUnit} (h : ZonesFit old x.zones) :
    ZonesFit coils (dropZones coils x).zones := by
  unfold dropZones
  dsimp only
  rw [foldl_resetZone_zones]
  intro y hy
  obtain ⟨mem, kept⟩ := List.mem_filter.1 hy
  obtain ⟨number, _, -, tubes, -, elevations, -⟩ := h y mem
  unfold zoneLost at kept
  split at kept
  case h_1 => cases kept
  case h_2 c hc =>
    have inside : ¬(c.tubes ≤ y.2.highTube ∨ c.elevations ≤ y.2.highElevation) := by simpa using kept
    exact ⟨number, c, hc, tubes, by omega, elevations, by omega⟩

theorem evaluatePass_zones (pass endUptime : Nat) (s : State) :
    (evaluatePass pass endUptime s).alm.zones = s.alm.zones := by
  have one (s : State) (x : Nat × Zone) : (evaluateZone pass endUptime s x).alm.zones = s.alm.zones := by
    unfold evaluateZone
    dsimp only
    split <;> rfl
  have all (xs : List (Nat × Zone)) (s : State) :
      (xs.foldl (evaluateZone pass endUptime) s).alm.zones = s.alm.zones := by
    induction xs generalizing s with
    | nil => rfl
    | cons x xs ih => exact (ih _).trans (one s x)
  exact all s.alm.zones s

/-! ### Reads of exposure -/

/-- What a read has left are whole tubes, of which it has taken no cell (R16). -/
def ExposureRead.InTubes (s : State) (x : ExposureRead) : Prop :=
  PartedByTube s x.left.flatten x.left ∧ ∀ n ∈ x.left.flatten, ∀ y ∈ x.taken, ¬InOneTube s n y.cell

/-- A tube taken leaves whole tubes. -/
theorem ExposureRead.InTubes.take {s : State} {x : ExposureRead} (h : x.InTubes s) (u : State) :
    (x.take u).InTubes s := by
  obtain ⟨⟨-, tubes, apart⟩, untaken⟩ := h
  obtain ⟨reply, left, taken⟩ := x
  cases left with
  | nil => exact ⟨⟨rfl, nofun, .nil⟩, nofun⟩
  | cons tube rest =>
    obtain ⟨first, others⟩ := List.pairwise_cons.1 apart
    refine ⟨⟨rfl, fun t ht => tubes t (List.mem_cons_of_mem _ ht), others⟩, fun n hn y hy => ?_⟩
    obtain old | new := List.mem_append.1 hy
    · exact untaken n (List.mem_append_right tube hn) y old
    · obtain ⟨m, hm, rfl⟩ := List.mem_map.1 new
      obtain ⟨t, ht, hnt⟩ := List.mem_flatten.1 hn
      exact fun together => first t ht m hm n hnt together.symm

/-- A read begins with the whole tubes of its cells. -/
theorem ExposureRead.inTubes_begun {s : State} (hg : Table.rising s.cfg.coils = true) {cells : List Nat}
    (ascending : cells.Pairwise (· < ·)) (inUse : ∀ n ∈ cells, n < s.cellTotal) (reply : ExposureReply) :
    ExposureRead.InTubes s { reply := reply, left := tubesOf s cells, taken := [] } := by
  refine ⟨?_, nofun⟩
  rw [tubesOf_flatten]
  exact tubesOf_parted s (State.rising_geometry hg) ascending inUse

theorem ReadsInTubes.setRead {s : State} (h : ReadsInTubes s) (l : Link) {x : Option ExposureRead}
    (hx : ∀ y, x = some y → y.InTubes s) : ReadsInTubes (setRead s l x) := by
  intro m y hy
  by_cases same : m = l
  · subst same
    rw [setRead_get_same] at hy
    exact hx y hy
  · rw [setRead_get_other s x same] at hy
    exact h m y hy

/-! ### The tube write -/

/-- A tube write touches the cells it writes, and no other (R74). -/
theorem foldl_writeCell_other (c : CoilDef) (pass : Nat) {xs : List (Nat × CellRecord)} {n : Nat}
    (hn : ∀ x ∈ xs, x.1 ≠ n) (s : State) :
    let t := xs.foldl (writeCell c pass) s
    t.cell n = s.cell n ∧ t.peak n = s.peak n ∧ t.accumulator n = s.accumulator n := by
  induction xs generalizing s with
  | nil => exact ⟨rfl, rfl, rfl⟩
  | cons x xs ih =>
    obtain ⟨first, rest⟩ := List.forall_mem_cons.1 hn
    obtain ⟨cell, peak, accumulator⟩ := ih rest (writeCell c pass s x)
    exact ⟨cell.trans (Table.get_put_ne CellRecord.blank _ _ first.symm),
      peak.trans (Table.find_set_ne _ _ first.symm), accumulator.trans (Table.get_put_ne 0 _ _ first.symm)⟩

theorem writeTube_other {s : State} (pass k : Nat) (c : CoilDef) (tube : Nat) {n : Nat}
    (hn : n ∉ tubeCells s.geometry k c.elevations tube) :
    let t := writeTube pass k c tube s
    t.cell n = s.cell n ∧ t.peak n = s.peak n ∧ t.accumulator n = s.accumulator n := by
  refine foldl_writeCell_other c pass (fun x hx same => hn ?_) s
  exact same ▸ (List.of_mem_zip hx).1

/-! ### The invariant -/

theorem ConfigImage.fits_unconfigured : ConfigImage.unconfigured.Fits :=
  ⟨CoilsFit.nil, rfl, rfl, nofun, nofun⟩

theorem captureConfig_fits {s : State} (coils : CoilsFit s.cfg.coils) (cells : UnusedCellsBlank s)
    (zones : ZonesFit s.cfg.coils s.alm.zones) : (captureConfig s).Fits := by
  obtain ⟨blank, sights⟩ := cells
  refine ⟨coils, Table.below_of_find_none fun n hn => ?_, Table.below_of_find_none fun n hn => ?_, sights, zones⟩
  · obtain ⟨-, -, -, -, primary, -⟩ := blank n hn
    exact primary
  · obtain ⟨-, -, -, -, -, alternate⟩ := blank n hn
    exact alternate

theorem cellsFitGeometry_loaded {s : State} (h : CellsFitGeometry s) (external strap1 strap0 : Bool) :
    CellsFitGeometry (loaded external strap1 strap0 s) := by
  obtain ⟨-, -, -, -, -, images⟩ := h
  obtain ⟨coils, primaries, alternates, sights, zones⟩ :
      ((readConfigImage (cutSave s.nvs).configStore).getD .unconfigured).Fits := by
    cases hi : readConfigImage (cutSave s.nvs).configStore with
    | none => exact ConfigImage.fits_unconfigured
    | some y => exact images y (readConfigImage_mem hi)
  refine ⟨coils, ⟨fun stopped => ⟨rfl, ?_⟩, fun running empty => running ?_, nofun⟩, ⟨fun n hn => ?_, sights⟩, zones,
    fun l => by cases l <;> nofun, fun x hx => images x ((imagesWithin_loaded external strap1 strap0 s).1 x hx)⟩
  · show (if startState _ _ = MapState.establishing then some _ else none) = none
    rw [if_neg]
    rw [show startState _ _ = MapState.stopped from stopped]
    nofun
  · show startState _ _ = MapState.stopped
    have empty' : ((readConfigImage (cutSave s.nvs).configStore).getD .unconfigured).coils = [] := empty
    simp [startState, empty']
  · refine ⟨rfl, rfl, ?_, rfl, Table.find_eq_none_of_below primaries hn, Table.find_eq_none_of_below alternates hn⟩
    show Table.get 0 (keptExposure _ _ _) n = 0
    exact congrArg (Option.getD · 0) (find_restrict_cellKept _ hn)

theorem cellsFitGeometry_editCoil {s : State} (h : CellsFitGeometry s) {k : Nat} {entry : Option CoilDef}
    (stopped : s.map.mapState = .stopped) (number : k ≤ 7) (reads : ∀ l, s.map.reads.get l = none)
    (size : ∀ c, entry = some c → 1 ≤ c.tubes ∧ c.tubes ≤ 64 ∧ 1 ≤ c.elevations ∧ c.elevations ≤ 8)
    (room : ∀ c, entry = some c → cellTotal (geometryOf (Table.insert s.cfg.coils k c)) ≤ 2048) :
    CellsFitGeometry (applyCoilEdit k entry s) := by
  obtain ⟨coils, ⟨idle, -, -⟩, -, zones, -, images⟩ := h
  refine ⟨coils.set number size room, ⟨fun _ => idle stopped, fun running => absurd stopped running, fun p hp => ?_⟩,
    ⟨fun n hn => ?_, fun x hx => lt_total_of_cellKept (List.mem_filter.1 hx).2⟩, zonesFit_dropZones zones,
    fun l x hx => ?_, images⟩
  · exact nomatch (idle stopped).1.symm.trans hp
  · have gone {α : Type} (t : Table α) := find_restrict_cellKept (old := s.geometry) t hn
    refine ⟨?_, gone _, ?_, gone _, gone _, Table.find_eq_none_of_sublist List.filter_sublist (gone _)⟩
    · exact congrArg (Option.getD · CellRecord.blank) (gone s.map.cells)
    · exact congrArg (Option.getD · 0) (gone s.map.exposure)
  · exact nomatch (reads l).symm.trans hx

theorem Effect.cellsFitGeometry {loud : Bool} {s t : State} (h : Effect loud s t) :
    BlocksCanonical s → CellsFitGeometry s → CellsFitGeometry t := by
  induction h with
  | trans one _ first second => exact fun hc hs => second (one.blocksCanonical hc) (first hc hs)
  | loaded s external strap1 strap0 => exact fun _ hs => cellsFitGeometry_loaded hs external strap1 strap0
  | clock s x kept =>
    rintro - ⟨coils, ⟨idle, running, walk⟩, rest⟩
    exact ⟨coils, ⟨fun h => ⟨(idle h).1, kept.trans (idle h).2⟩, running, walk⟩, rest⟩
  | scanner s x kept =>
    rw [kept]
    exact fun _ hs => hs
  | scan s sight cell x named =>
    rintro - ⟨coils, walk, ⟨blank, sights⟩, rest⟩
    have inUse : cell < s.cellTotal := sights _ (Table.find_mem named)
    refine ⟨coils, walk, ⟨fun n hn => ?_, sights⟩, rest⟩
    obtain ⟨cell, peak, accumulator, scan, assigned⟩ := blank n hn
    refine ⟨cell, peak, accumulator, ?_, assigned⟩
    exact (Table.find_insert _ _ x n).trans ((if_neg (Nat.ne_of_gt (Nat.lt_of_lt_of_le inUse hn))).trans scan)
  | sights s count first entries inUse =>
    rintro - ⟨coils, walk, ⟨blank, sights⟩, rest⟩
    refine ⟨coils, walk, ⟨fun n hn => ?_, fun x hx => ?_⟩, rest⟩
    · obtain ⟨cell, peak, accumulator, scan, assigned⟩ := blank n hn
      exact ⟨cell, peak, accumulator, Table.find_eq_none_of_sublist List.filter_sublist scan, assigned⟩
    · obtain ⟨m, -, hm⟩ := List.mem_filterMap.1 hx
      split at hm
      case h_1 entry listed =>
        obtain ⟨cell, rfl, rfl⟩ := Option.map_eq_some_iff.1 hm
        unfold listedEntry at listed
        split at listed
        · exact of_decide_eq_true (inUse cell (List.mem_of_getElem? listed))
        · cases listed
      case h_2 =>
        obtain ⟨cell, named, rfl⟩ := Option.map_eq_some_iff.1 hm
        exact sights _ (Table.find_mem named)
  | mapCounters s x kept =>
    rw [kept]
    exact fun _ hs => hs
  | startMapping s x stopped hasCoils =>
    rintro - ⟨coils, ⟨idle, -, walk⟩, ⟨blank, sights⟩, rest⟩
    exact ⟨coils, ⟨nofun, fun _ => hasCoils, walk⟩, ⟨fun n hn => ⟨rfl, (blank n hn).2⟩, sights⟩, rest⟩
  | passCounter s x counting =>
    rintro - ⟨coils, ⟨idle, running, walk⟩, rest⟩
    refine ⟨coils, ⟨fun h => ?_, running, walk⟩, rest⟩
    obtain ⟨-, none⟩ := idle h
    simp [none] at counting
  | newPass s counting noPass =>
    rintro - ⟨coils, ⟨idle, running, -⟩, rest⟩
    have outside : s.map.mapState ≠ .stopped := fun h => by
      obtain ⟨-, none⟩ := idle h
      simp [none] at counting
    refine ⟨coils, ⟨fun h => absurd h outside, running, ?_⟩, rest⟩
    rintro _ ⟨⟩
    obtain ⟨x, others, listed⟩ := List.exists_cons_of_ne_nil (running outside)
    have first : (Machine.newPass s).coil = x.1 := by
      simp [Machine.newPass, firstCoil, State.geometry, geometryOf, Table.mapEntries, listed]
    rw [first]
    refine coils.firstTube (d := x.2.dims) ?_
    rw [State.geometry, listed]
    exact List.mem_cons_self
  | writeTube s p c walking coil =>
    rintro - ⟨coils, ⟨idle, running, walk⟩, ⟨blank, sights⟩, rest⟩
    have tube : p.tube < c.tubes := by
      obtain ⟨c', coil', tube⟩ := walk p walking
      cases coil.symm.trans coil'
      exact tube
    have other (n : Nat) (hn : s.cellTotal ≤ n) :=
      writeTube_other (s := s) p.number p.coil c p.tube (n := n) fun mem => by
        obtain ⟨e, elevation, rfl⟩ := (mem_tubeCells ..).1 mem
        have := cellNumber_lt_total coils.1 coil tube elevation
        omega
    rw [writeTube_frame] at other ⊢
    refine ⟨coils, ⟨idle, running, walk⟩, ⟨fun n hn => ?_, sights⟩, rest⟩
    obtain ⟨cell, peak, accumulator⟩ := other n hn
    obtain ⟨blankCell, blankPeak, blankAccumulator, others⟩ := blank n hn
    exact ⟨cell.trans blankCell, peak.trans blankPeak, accumulator.trans blankAccumulator, others⟩
  | movePass s p q walking next =>
    rintro - ⟨coils, ⟨idle, running, walk⟩, rest⟩
    refine ⟨coils, ⟨fun h => ?_, running, ?_⟩, rest⟩
    · exact nomatch (idle h).1.symm.trans walking
    rintro _ ⟨⟩
    obtain ⟨c, coil, tube⟩ := walk p walking
    obtain ⟨sameCoil, sameTube⟩ | after := next
    · exact ⟨c, sameCoil ▸ coil, sameTube ▸ tube⟩
    · obtain ⟨d, listed, sameCoil, -, inside⟩ | ⟨⟨d, listed⟩, zero⟩ := tubeAfter_mem after
      · rw [State.find_geometry, coil] at listed
        cases listed
        exact ⟨c, sameCoil ▸ coil, inside⟩
      · rw [zero]
        exact coils.firstTube listed
  | endPass s =>
    rintro - ⟨coils, ⟨idle, running, -⟩, rest⟩
    exact ⟨coils, ⟨fun h => ⟨rfl, (idle h).2⟩, running, nofun⟩, rest⟩
  | establish s establishing =>
    rintro - ⟨coils, ⟨idle, running, walk⟩, rest⟩
    exact ⟨coils, ⟨nofun, fun _ => running (by simp [establishing]), walk⟩, rest⟩
  | stop s walking pass =>
    rintro - ⟨coils, -, cells, zones, reads, images⟩
    have frame : stoppedBlocks walking s =
        { stoppedBlocks walking s with
          cfg := s.cfg, nvs := s.nvs
          scn := { (cancelledScanner s) with sights := s.scn.sights, scans := s.scn.scans }
          map := { (stoppedBlocks walking s).map with
            pass := none, mapState := .stopped, cells := s.map.cells, peaks := s.map.peaks, exposure := s.map.exposure
            reads := s.map.reads } } := by
      unfold stoppedBlocks cancelledScanner abandonedMap
      cases walking <;> cases s.scn.sweep <;> simp_all
    rw [frame]
    exact ⟨coils, ⟨fun _ => ⟨rfl, rfl⟩, fun h => absurd rfl h, nofun⟩, cells, zones, reads, images⟩
  | fewerPeaks s x fewer =>
    rintro - ⟨coils, walk, ⟨blank, sights⟩, rest⟩
    refine ⟨coils, walk, ⟨fun n hn => ?_, sights⟩, rest⟩
    obtain ⟨cell, peak, others⟩ := blank n hn
    exact ⟨cell, Table.find_eq_none_of_sublist fewer peak, others⟩
  | fewerExposed s x fewer =>
    rintro hc ⟨coils, walk, ⟨blank, sights⟩, rest⟩
    refine ⟨coils, walk, ⟨fun n hn => ?_, sights⟩, rest⟩
    obtain ⟨cell, peak, accumulator, others⟩ := blank n hn
    exact ⟨cell, peak, Table.get_zero_of_sublist fewer hc.map.2.2 accumulator, others⟩
  | answerRead s l x y =>
    rintro - ⟨coils, walk, cells, zones, reads, images⟩
    exact ⟨coils, walk, cells, zones, reads.setRead l nofun, images⟩
  | takeRead s l x running =>
    rintro - ⟨coils, walk, cells, zones, reads, images⟩
    refine ⟨coils, walk, cells, zones, reads.setRead l ?_, images⟩
    rintro _ ⟨⟩
    exact ExposureRead.InTubes.take (reads l x running) s
  | readCells s l reply first n inUse =>
    rintro - ⟨coils, walk, cells, zones, reads, images⟩
    refine ⟨coils, walk, cells, zones, reads.setRead l ?_, images⟩
    rintro _ ⟨⟩
    exact (ExposureRead.inTubes_begun coils.1 List.pairwise_lt_range' inUse reply).take s
  | readZone s l reply n z resume defined =>
    rintro - ⟨coils, walk, cells, zones, reads, images⟩
    refine ⟨coils, walk, cells, zones, reads.setRead l ?_, images⟩
    rintro _ ⟨⟩
    obtain ⟨c, coil, -, tubes, -, elevations⟩ := zones.zone defined
    have part : (((zoneCells s z).drop resume).take chunkPlaces).Sublist (zoneCells s z) :=
      (List.take_sublist _ _).trans (List.drop_sublist _ _)
    exact (ExposureRead.inTubes_begun coils.1 ((zoneCells_ascending s z coil elevations).sublist part)
      (fun m hm => zoneCells_inUse coils.1 coil tubes elevations m (part.subset hm)) reply).take s
  | evaluate s pass endUptime =>
    rintro - ⟨coils, walk, cells, zones, rest⟩
    have kept := evaluatePass_zones pass endUptime s
    rw [evaluatePass_frame] at kept ⊢
    exact ⟨coils, walk, cells, fun x hx => zones x (kept ▸ hx), rest⟩
  | defineZone s n z c number coil tubes elevations =>
    rintro - ⟨coils, walk, cells, zones, rest⟩
    refine ⟨coils, walk, cells, fun x hx => ?_, rest⟩
    obtain rfl | hx := Table.mem_insert (show x ∈ Table.insert s.alm.zones n z from hx)
    · exact ⟨number, c, coil, tubes.1, tubes.2, elevations.1, elevations.2⟩
    · exact zones x hx
  | deleteZone s n =>
    rintro - ⟨coils, walk, cells, zones, rest⟩
    exact ⟨coils, walk, cells, fun x hx => zones x ((Table.erase_sublist s.alm.zones n).subset hx), rest⟩
  | copyCell s clearing n =>
    rintro - ⟨coils, walk, ⟨blank, sights⟩, rest⟩
    have fewer : (Machine.copyCell clearing s n).map.peaks.Sublist s.map.peaks := by
      unfold Machine.copyCell
      dsimp only
      split
      · exact Table.erase_sublist _ n
      · exact .refl _
    rw [copyCell_frame]
    refine ⟨coils, walk, ⟨fun n hn => ?_, sights⟩, rest⟩
    obtain ⟨cell, peak, others⟩ := blank n hn
    exact ⟨cell, Table.find_eq_none_of_sublist fewer peak, others⟩
  | settings s x kept =>
    rw [kept]
    exact fun _ hs => hs
  | editCoil s k entry stopped number reads size room =>
    exact fun _ hs => cellsFitGeometry_editCoil hs stopped number reads size room
  | assignPrimary s cell channel inUse =>
    rintro - ⟨coils, walk, ⟨blank, sights⟩, rest⟩
    refine ⟨coils, walk, ⟨fun n hn => ?_, sights⟩, rest⟩
    obtain ⟨blankCell, peak, accumulator, scan, primary, alternate⟩ := blank n hn
    have other : n ≠ cell := Nat.ne_of_gt (Nat.lt_of_lt_of_le (of_decide_eq_true inUse) hn)
    refine ⟨blankCell, peak, accumulator, scan, ?_, Table.find_eq_none_of_sublist List.filter_sublist alternate⟩
    exact (Table.find_insert _ _ channel n).trans
      ((if_neg other).trans (Table.find_eq_none_of_sublist List.filter_sublist primary))
  | releasePrimary s cell =>
    rintro - ⟨coils, walk, ⟨blank, sights⟩, rest⟩
    refine ⟨coils, walk, ⟨fun n hn => ?_, sights⟩, rest⟩
    obtain ⟨blankCell, peak, accumulator, scan, primary, alternate⟩ := blank n hn
    exact ⟨blankCell, peak, accumulator, scan, Table.find_eq_none_of_sublist (Table.erase_sublist _ cell) primary,
      Table.find_eq_none_of_sublist List.filter_sublist alternate⟩
  | assignAlternate s cell channel offset inUse =>
    rintro - ⟨coils, walk, ⟨blank, sights⟩, rest⟩
    refine ⟨coils, walk, ⟨fun n hn => ?_, sights⟩, rest⟩
    obtain ⟨blankCell, peak, accumulator, scan, primary, alternate⟩ := blank n hn
    have other : n ≠ cell := Nat.ne_of_gt (Nat.lt_of_lt_of_le (of_decide_eq_true inUse) hn)
    exact ⟨blankCell, peak, accumulator, scan, primary,
      (Table.find_insert _ _ _ n).trans ((if_neg other).trans alternate)⟩
  | releaseAlternate s cell =>
    rintro - ⟨coils, walk, ⟨blank, sights⟩, rest⟩
    refine ⟨coils, walk, ⟨fun n hn => ?_, sights⟩, rest⟩
    obtain ⟨blankCell, peak, accumulator, scan, primary, alternate⟩ := blank n hn
    exact ⟨blankCell, peak, accumulator, scan, primary,
      Table.find_eq_none_of_sublist (Table.erase_sublist _ cell) alternate⟩
  | saveConfig s l =>
    rintro - ⟨coils, walk, cells, zones, reads, images⟩
    refine ⟨coils, walk, cells, zones, reads, fun x hx => ?_⟩
    obtain rfl | hx := configImages_saveConfig s l x hx
    · exact captureConfig_fits coils cells zones
    · exact images x hx
  | saveExposure s l =>
    rintro - ⟨coils, walk, cells, zones, reads, images⟩
    exact ⟨coils, walk, cells, zones, reads, fun x hx => images x (configImages_saveExposure s l x hx)⟩
  | saveEnds s agrees x flying =>
    rintro - ⟨coils, walk, cells, zones, reads, images⟩
    exact ⟨coils, walk, cells, zones, reads, fun y hy => images y ((imagesWithin_saveEnds flying agrees).1 y hy)⟩
  | _ => exact fun _ hs => hs

/-- Settles O54: every effect of a step keeps the agreement. -/
theorem cellsStayInGeometry : Obligations.CellsStayInGeometry := by
  unfold Obligations.CellsStayInGeometry
  exact fun s t hc hs h => (step_effect h).cellsFitGeometry ((tablesCanonical_iff s).1 hc) hs

end Sys2Proof.Machine

/-! ## What every step keeps of alarms, limit output and hot tube list (R125, R131, R138 to R140) -/

namespace Sys2Proof.Machine

/-! ### Records -/

theorem AlarmRecord.settled_reset : AlarmRecord.reset.Settled := ⟨fun _ => rfl, nofun⟩

theorem AlarmRecord.settled_toNormal (r : AlarmRecord) : r.toNormal.Settled := ⟨fun _ => rfl, nofun⟩

theorem AlarmRecord.Settled.latchingStep {r : AlarmRecord} (h : r.Settled) (cond : CondSet) :
    (latchingStep cond r).1.Settled := by
  unfold Machine.latchingStep
  cases hr : r.state <;> dsimp only
  case normal | clearedUnacked =>
    split
    · exact h
    · exact ⟨nofun, nofun⟩
  case activeUnacked =>
    split
    · exact ⟨nofun, fun _ => rfl⟩
    · exact ⟨nofun, nofun⟩
  case activeAcked =>
    split
    · exact settled_toNormal r
    split
    · exact ⟨nofun, nofun⟩
    · exact ⟨nofun, nofun⟩
  case active => exact h

theorem AlarmRecord.Settled.repeatingStep {r : AlarmRecord} (h : r.Settled) (interval : Nat) (cond : CondSet) :
    (repeatingStep interval cond r).1.Settled := by
  unfold Machine.repeatingStep
  cases hr : r.state <;> dsimp only
  case normal =>
    split
    · exact h
    · exact ⟨nofun, nofun⟩
  case active =>
    split
    · exact settled_toNormal r
    split <;> exact ⟨nofun, nofun⟩
  all_goals exact h

theorem AlarmRecord.Settled.alarmStep {r : AlarmRecord} (h : r.Settled) (z : Zone) (cond : CondSet) :
    (alarmStep z cond r).1.Settled := by
  unfold Machine.alarmStep
  split
  · exact h.latchingStep cond
  · exact h.repeatingStep _ cond

/-- A raised record acknowledged keeps its conditions (R134). -/
theorem AlarmRecord.Settled.ackRecord {r : AlarmRecord} (h : r.Settled) (raised : r.state ≠ .normal)
    (policy : AckPolicy) (l : Link) :
    (ackRecord policy l r).1.Settled ∧ (ackRecord policy l r).1.conditions = r.conditions := by
  unfold Machine.ackRecord
  dsimp only
  split
  case h_1 => exact ⟨⟨nofun, nofun⟩, rfl⟩
  case h_2 cleared _ => exact ⟨settled_toNormal r, (h.2 cleared).symm⟩
  case h_3 => exact ⟨⟨fun normal => absurd normal raised, h.2⟩, rfl⟩

/-- A Normal record holds no condition (R131). -/
theorem AlarmRecord.Settled.conditions_eq_zero {r : AlarmRecord} (h : r.Settled) (normal : r.state = .normal) :
    r.conditions = 0 := by
  rw [h.1 normal]
  rfl

/-! ### Zones -/

/-- An evaluation of zone `n` writes its record and no other (R125, step 1). -/
theorem evaluateZone_alarm {s : State} (h : Table.rising s.alm.records = true) (pass endUptime : Nat)
    (x : Nat × Zone) (n : Nat) :
    (evaluateZone pass endUptime s x).alarm n =
      if n = x.1 then
        (alarmStep x.2
          (judgeConditions x.2 (s.alarm x.1).conditions (zoneFigures s x.1 x.2 pass endUptime)) (s.alarm x.1)).1
      else s.alarm n := by
  unfold Machine.evaluateZone
  dsimp only
  split <;> exact Table.get_put AlarmRecord.reset h _ _ n

theorem foldl_evaluateZone_settled (pass endUptime : Nat) (zones : Table Zone) {s : State} (hc : s.alm.Canonical)
    (hs : ∀ n, (s.alarm n).Settled) (n : Nat) :
    ((zones.foldl (evaluateZone pass endUptime) s).alarm n).Settled := by
  induction zones generalizing s with
  | nil => exact hs n
  | cons x zones ih =>
    refine ih (hc.evaluateZone pass endUptime x) fun m => ?_
    rw [evaluateZone_alarm hc.2.1.1]
    split
    · exact (hs x.1).alarmStep x.2 _
    · exact hs m

/-- Resetting zones touches records, windows and figures alone. -/
theorem foldl_resetZone_frame (lost : List Nat) (x : AlarmUnit) :
    let y := lost.foldl resetZone x
    y = { x with records := y.records, windows := y.windows, figures := y.figures } := by
  induction lost generalizing x with
  | nil => rfl
  | cons n lost ih =>
    rw [List.foldl_cons, ih]
    rfl

theorem dropZones_hotList (coils : Table CoilDef) (x : AlarmUnit) : (dropZones coils x).hotList = x.hotList := by
  unfold dropZones
  dsimp only
  rw [foldl_resetZone_frame]

theorem dropZones_limitOutput (coils : Table CoilDef) (x : AlarmUnit) :
    (dropZones coils x).limitOutput = x.limitOutput := by
  unfold dropZones
  dsimp only
  rw [foldl_resetZone_frame]

/-- What a table of records keeps when zones are reset: any property that Normal records have. -/
theorem foldl_resetZone_records {P : AlarmRecord → Prop} (normal : ∀ r : AlarmRecord, P r.toNormal) (lost : List Nat)
    {x : AlarmUnit} (hc : x.Canonical) (hx : ∀ n, P (Table.get .reset x.records n)) (n : Nat) :
    P (Table.get .reset (lost.foldl resetZone x).records n) := by
  induction lost generalizing x with
  | nil => exact hx n
  | cons m lost ih =>
    refine ih (hc.resetZone m) fun k => ?_
    rw [resetZone, Table.get_put AlarmRecord.reset hc.2.1.1]
    split
    · exact normal _
    · exact hx k

theorem dropZones_records {P : AlarmRecord → Prop} (normal : ∀ r : AlarmRecord, P r.toNormal) (coils : Table CoilDef)
    {x : AlarmUnit} (hc : x.Canonical) (hx : ∀ n, P (Table.get .reset x.records n)) (n : Nat) :
    P (Table.get .reset (dropZones coils x).records n) := by
  obtain ⟨zones, rest⟩ := hc
  exact foldl_resetZone_records normal _ (x := { x with zones := _ }) ⟨Table.rising_filter zones _, rest⟩ hx n

/-! ### The limit output -/

theorem limitCalled_eq_false {s : State} (h : s.established = false) : limitCalled s = false := by
  simp [limitCalled, h]

/-- The limit output depends on the map state, the zones and the conditions that records hold (R138). -/
theorem limitCalled_congr {s t : State} (state : s.map.mapState = t.map.mapState) (zones : s.alm.zones = t.alm.zones)
    (conditions : ∀ n, (s.alarm n).conditions = (t.alarm n).conditions) : limitCalled s = limitCalled t := by
  simp only [limitCalled, State.established, state, zones, conditions]

theorem limitCalled_of_no_condition {s : State} (h : ∀ n, (s.alarm n).conditions = 0) : limitCalled s = false := by
  simp [limitCalled, h, hasCond]

/-! ### The invariant -/

theorem AlarmsFollowMap.evaluate {s : State} (hs : AlarmsFollowMap s) (hc : s.alm.Canonical)
    (established : s.established = true) (pass endUptime : Nat) : AlarmsFollowMap (evaluatePass pass endUptime s) := by
  obtain ⟨settled, -, -⟩ := hs
  have still : (evaluatePass pass endUptime s).established = true := by
    rw [evaluatePass_frame]
    exact established
  refine ⟨foldl_evaluateZone_settled pass endUptime s.alm.zones hc settled, rfl, fun h => ?_⟩
  exact nomatch still.symm.trans h

theorem AlarmsFollowMap.applyZone {s : State} (hs : AlarmsFollowMap s) (hc : s.alm.Canonical) (n : Nat)
    (z : Option Zone) : AlarmsFollowMap (applyZone n z s) := by
  obtain ⟨settled, -, silent⟩ := hs
  have alarm (m : Nat) : (Machine.applyZone n z s).alarm m = if m = n then (s.alarm n).toNormal else s.alarm m :=
    Table.get_put AlarmRecord.reset hc.2.1.1 n _ m
  refine ⟨fun m => ?_, rfl, fun h => ⟨fun m => ?_, (silent h).2⟩⟩ <;> rw [alarm] <;> split
  · exact AlarmRecord.settled_toNormal _
  · exact settled m
  · rfl
  · exact (silent h).1 m

theorem AlarmsFollowMap.acknowledge {s : State} (hs : AlarmsFollowMap s) (hc : s.alm.Canonical) {n : Nat}
    (raised : (s.alarm n).state ≠ .normal) (policy : AckPolicy) (l : Link) :
    AlarmsFollowMap (s.withAlm
      { s.alm with records := Table.put .reset s.alm.records n (ackRecord policy l (s.alarm n)).1 }) := by
  obtain ⟨settled, limit, silent⟩ := hs
  have alarm (m : Nat) : (s.withAlm { s.alm with
      records := Table.put .reset s.alm.records n (ackRecord policy l (s.alarm n)).1 }).alarm m =
        if m = n then (ackRecord policy l (s.alarm n)).1 else s.alarm m :=
    Table.get_put AlarmRecord.reset hc.2.1.1 n _ m
  obtain ⟨acked, conditions⟩ := (settled n).ackRecord raised policy l
  refine ⟨fun m => ?_, limit.trans (limitCalled_congr rfl rfl fun m => ?_), fun h => ?_⟩
  · rw [alarm]
    split
    · exact acked
    · exact settled m
  · rw [alarm]
    split
    case isTrue same => rw [same, conditions]
    case isFalse => rfl
  · exact absurd ((silent h).1 n) raised

theorem AlarmsFollowMap.establish {s : State} (hs : AlarmsFollowMap s) (establishing : s.map.mapState = .establishing) :
    AlarmsFollowMap (s.withMap { s.map with mapState := .mapping }) := by
  obtain ⟨settled, limit, silent⟩ := hs
  have before : s.established = false := by simp [State.established, establishing]
  obtain ⟨normal, -⟩ := silent before
  refine ⟨settled, ?_, nofun⟩
  have none : limitCalled (s.withMap { s.map with mapState := .mapping }) = false :=
    limitCalled_of_no_condition fun n => (settled n).conditions_eq_zero (normal n)
  exact (limit.trans (limitCalled_eq_false before)).trans none.symm

theorem AlarmsFollowMap.stop {s : State} (hc : s.alm.Canonical) (walking : Option Pass) :
    AlarmsFollowMap (stoppedBlocks walking s) := by
  have alarm (n : Nat) : (stoppedBlocks walking s).alarm n = (s.alarm n).toNormal :=
    silenceAlarms_alarm hc.2.1.1 s.map.lastCompleted n
  refine ⟨fun n => ?_, (limitCalled_eq_false rfl).symm, fun _ => ⟨fun n => ?_, rfl⟩⟩ <;> rw [alarm]
  · exact AlarmRecord.settled_toNormal _
  · rfl

theorem AlarmsFollowMap.editCoil {s : State} (hs : AlarmsFollowMap s) (hc : s.alm.Canonical)
    (stopped : s.map.mapState = .stopped) (k : Nat) (entry : Option CoilDef) :
    AlarmsFollowMap (applyCoilEdit k entry s) := by
  obtain ⟨settled, limit, silent⟩ := hs
  have before : s.established = false := by simp [State.established, stopped]
  have after : (applyCoilEdit k entry s).established = false := before
  obtain ⟨normal, hotList⟩ := silent before
  refine ⟨dropZones_records AlarmRecord.settled_toNormal _ hc settled, ?_, fun _ =>
    ⟨dropZones_records (P := fun r => r.state = .normal) (fun _ => rfl) _ hc normal, ?_⟩⟩
  · rw [limitCalled_eq_false after, ← limitCalled_eq_false before, ← limit]
    exact dropZones_limitOutput _ _
  · exact (dropZones_hotList _ _).trans hotList

theorem Effect.alarmsFollowMap {loud : Bool} {s t : State} (h : Effect loud s t) :
    BlocksCanonical s → AlarmsFollowMap s → AlarmsFollowMap t := by
  induction h with
  | trans one _ first second => exact fun hc hs => second (one.blocksCanonical hc) (first hc hs)
  | loaded s external strap1 strap0 =>
    have notYet : (Machine.loaded external strap1 strap0 s).established = false := by
      show decide (startState _ _ = MapState.mapping) = false
      unfold startState
      split <;> rfl
    exact fun _ _ => ⟨fun _ => AlarmRecord.settled_reset, (limitCalled_eq_false notYet).symm, fun _ => ⟨fun _ => rfl, rfl⟩⟩
  | mapCounters s x kept =>
    rw [kept]
    exact fun _ hs => hs
  | startMapping s x stopped =>
    rintro - ⟨settled, limit, silent⟩
    have before : s.established = false := by simp [State.established, stopped]
    exact ⟨settled, (limit.trans (limitCalled_eq_false before)).trans (limitCalled_eq_false rfl).symm,
      fun _ => silent before⟩
  | writeTube s p c =>
    rw [writeTube_frame]
    exact fun _ hs => hs
  | establish s establishing => exact fun _ hs => hs.establish establishing
  | stop s walking => exact fun hc _ => AlarmsFollowMap.stop hc.alm walking
  | evaluate s pass endUptime established => exact fun hc hs => hs.evaluate hc.alm established pass endUptime
  | acknowledge s l n z raised => exact fun hc hs => hs.acknowledge hc.alm raised z.ackPolicy l
  | defineZone s n z => exact fun hc hs => hs.applyZone hc.alm n (some z)
  | deleteZone s n => exact fun hc hs => hs.applyZone hc.alm n none
  | copyCell s clearing n =>
    rw [copyCell_frame]
    exact fun _ hs => hs
  | editCoil s k entry stopped => exact fun hc hs => hs.editCoil hc.alm stopped k entry
  | _ => exact fun _ hs => hs

theorem hotListOf_ordered {s : State} (h : TablesCanonical s) :
    (hotListOf s).length ≤ hotPlaces ∧ (hotListOf s).Pairwise fun x y => x.before y = true := by
  rw [hotListOf_eq_take]
  exact ⟨List.length_take_le _ _, (pairwise_hotRanking h).sublist (List.take_sublist _ _)⟩

theorem Effect.hotListOrdered {loud : Bool} {s t : State} (h : Effect loud s t) :
    BlocksCanonical s → HotListOrdered s → HotListOrdered t := by
  unfold HotListOrdered
  induction h with
  | trans one _ first second => exact fun hc hs => second (one.blocksCanonical hc) (first hc hs)
  | loaded | stop => exact fun _ _ => ⟨Nat.zero_le _, .nil⟩
  | writeTube s p c =>
    rw [writeTube_frame]
    exact fun _ hs => hs
  | evaluate s pass endUptime =>
    intro hc _
    rw [evaluatePass_hotList]
    exact hotListOf_ordered ((tablesCanonical_iff s).2 hc)
  | copyCell s clearing n =>
    rw [copyCell_frame]
    exact fun _ hs => hs
  | editCoil s k entry =>
    intro _ hs
    have same : (applyCoilEdit k entry s).alm.hotList = s.alm.hotList :=
      dropZones_hotList _ _
    rwa [same]
  | _ => exact fun _ hs => hs

/-- Settles O59: every effect of a step keeps alarms, limit output and list with the map. -/
theorem alarmsStayWithMap : Obligations.AlarmsStayWithMap := by
  unfold Obligations.AlarmsStayWithMap
  intro s t hc h
  have canonical := (tablesCanonical_iff s).1 hc
  exact ⟨(step_effect h).alarmsFollowMap canonical, (step_effect h).hotListOrdered canonical⟩

end Sys2Proof.Machine

/-! ## The lengths of replies (R175)

Every reply fits a frame: its fields have fixed sizes, and its lists a bounded number of entries. -/

namespace Sys2Proof.Machine

/-! ### Fields -/

@[simp] theorem length_enc8 (n : Nat) : (enc8 n).length = 1 := rfl
@[simp] theorem length_enc16 (n : Nat) : (enc16 n).length = 2 := rfl
@[simp] theorem length_enc32 (n : Nat) : (enc32 n).length = 4 := rfl
@[simp] theorem length_enc64 (n : Nat) : (enc64 n).length = 8 := rfl
@[simp] theorem length_encInt8 (z : Int) : (encInt8 z).length = 1 := rfl
@[simp] theorem length_encInt16 (z : Int) : (encInt16 z).length = 2 := rfl
@[simp] theorem length_encInt32 (z : Int) : (encInt32 z).length = 4 := rfl
@[simp] theorem length_encBool (b : Bool) : (encBool b).length = 1 := by cases b <;> rfl

theorem length_encOption_le {α : Type} {f : α → List Byte} {n : Nat} (h : ∀ x, (f x).length ≤ n) (o : Option α) :
    (encOption f o).length ≤ n + 1 := by
  cases o with
  | none => exact Nat.le_add_left 1 n
  | some x => exact Nat.succ_le_succ (h x)

theorem length_flatMap_le {α β : Type} {f : α → List β} {n : Nat} (h : ∀ x, (f x).length ≤ n) (xs : List α) :
    (xs.flatMap f).length ≤ xs.length * n := by
  induction xs with
  | nil => simp
  | cons x xs ih =>
    have := h x
    simp only [List.flatMap_cons, List.length_append, List.length_cons, Nat.succ_mul]
    omega

@[simp] theorem length_rangeOf (first count : Nat) : (rangeOf first count).length = count := List.length_range'

theorem length_flatMap_rangeOf_le {β : Type} {f : Nat → List β} {n limit : Nat} (h : ∀ x, (f x).length ≤ n)
    (first last count : Nat) : ((rangeOf first (rangeCount limit first last count)).flatMap f).length ≤ limit * n := by
  refine (length_flatMap_le h _).trans (Nat.mul_le_mul_right n ?_)
  rw [length_rangeOf]
  unfold rangeCount
  omega

/-! ### Entries -/

theorem length_channel_encode_le (c : Channel) : c.encode.length ≤ 32 := by
  unfold Channel.encode
  split
  · simp
  · have cause := length_encOption_le (f := fun x : FailureCause => enc8 x.position) (n := 1) (fun _ => by simp) c.cause
    have lastGood := length_encOption_le
      (f := fun g : LastGood => encInt16 g.value ++ enc32 g.stamp ++ enc8 g.age) (n := 7) (fun _ => by simp) c.lastGood
    have value := length_encOption_le (f := fun k : Candidate => encInt16 k.value) (n := 2) (fun _ => by simp)
      c.candidate
    have tally := length_encOption_le (f := fun k : Candidate => enc8 k.tally) (n := 1) (fun _ => by simp) c.candidate
    have age := length_encOption_le (f := fun k : Candidate => enc8 k.suspectAge) (n := 1) (fun _ => by simp)
      c.candidate
    have run := length_encOption_le (f := enc8) (n := 1) (fun _ => by simp) (some c.lostRun)
    have config := length_encOption_le (f := ChannelConfig.encode) (n := 5) (fun _ => by simp [ChannelConfig.encode])
      c.config
    simp only [List.length_append, length_enc8]
    omega

theorem length_sweepKind_encode_le (k : SweepKind) : k.encode.length ≤ 2 := by
  cases k <;> simp [SweepKind.encode]

theorem length_encPendingSlot_le (k : Option SweepKind) : (encPendingSlot k).length ≤ 2 := by
  rcases k with _ | _ | _ <;> simp [encPendingSlot]

theorem length_sweep_encode_le (x : Sweep) : x.encode.length ≤ 14 := by
  have kind := length_sweepKind_encode_le x.kind
  have fault := length_encOption_le (f := enc8) (n := 1) (fun _ => by simp) x.lastFault
  simp only [Sweep.encode, List.length_append, length_enc8, length_enc16]
  omega

theorem length_lastSweep_encode_le (x : LastSweep) : x.encode.length ≤ 16 := by
  have kind := length_sweepKind_encode_le x.kind
  have fault := length_encOption_le (f := enc8) (n := 1) (fun _ => by simp) x.lastFault
  simp only [LastSweep.encode, List.length_append, length_enc8, length_enc16, length_enc32, length_encBool]
  omega

theorem length_encScan_le (s : State) (n : Nat) : (encScan s n).length ≤ 15 :=
  length_encOption_le (fun _ => by simp) _

theorem length_comparison_encode (x : Comparison) : x.encode.length = 15 := by simp [Comparison.encode]

theorem length_zone_encode (z : Zone) : z.encode.length = 22 := by simp [Zone.encode]

theorem length_alarmRecord_encode (r : AlarmRecord) : r.encode.length = 8 := by simp [AlarmRecord.encode, AckSet.encode]

theorem length_figures_encode_le (f : ZoneFigures) : f.encode.length ≤ 19 := by
  have maximum := length_encOption_le (f := encInt16) (n := 2) (fun _ => by simp) f.maximum
  have minimum := length_encOption_le (f := encInt16) (n := 2) (fun _ => by simp) f.minimum
  have rate := length_encOption_le (f := encInt32) (n := 4) (fun _ => by simp) f.rate
  simp only [ZoneFigures.encode, List.length_append, length_enc16, length_enc32]
  omega

theorem length_encZoneEntry_le (b : Bool) (z : Option Zone) (r : AlarmRecord) (f : Option ZoneFigures) :
    (encZoneEntry b z r f).length ≤ 52 := by
  have definition := length_encOption_le (fun z => (length_zone_encode z).le) z
  have figures := length_encOption_le length_figures_encode_le f
  unfold encZoneEntry
  split
  · simp only [List.length_append, length_encBool, length_alarmRecord_encode]
    omega
  · simp

theorem length_encLiveZone_le (s : State) (n : Nat) : (encLiveZone s n).length ≤ 53 := by
  have entry := length_encZoneEntry_le (s.zone n).isSome (s.zone n) (s.alarm n) (Table.find s.alm.figures n)
  unfold encLiveZone
  split <;> simp only [List.length_append, length_enc8, List.length_nil] <;> omega

theorem length_pass_encode (p : Pass) : p.encode.length = 14 := by simp [Pass.encode]

theorem length_lastPass_encode_le (x : LastPass) : x.encode.length ≤ 24 := by
  have reason := length_encOption_le (f := fun r : AbandonReason => enc8 r.position) (n := 1) (fun _ => by simp)
    x.reason
  have coils := length_encOption_le (f := fun c : CoilSet => enc8 c.toNat) (n := 1) (fun _ => by simp) x.unanchored
  simp only [LastPass.encode, List.length_append, length_enc8, length_enc16, length_enc32, length_encBool]
  omega

theorem length_takenCell_encode (x : TakenCell) : x.encode.length = 7 := by simp [TakenCell.encode]

theorem length_encCellShort (n : Nat) (c : CellRecord) (p : Option Peak) : (encCellShort n c p).length = 12 := by
  simp [encCellShort]

theorem length_encCellLong (n : Nat) (c : CellRecord) (p : Option Peak) : (encCellLong n c p).length = 20 := by
  simp [encCellLong, length_encCellShort]

theorem length_hotEntry_encode (x : HotEntry) : x.encode.length = 9 := by simp [HotEntry.encode]

theorem length_event_encode (x : Event) : x.encode.length = 16 := by simp [Event.encode]

theorem length_encCoil_le (s : State) (k : Nat) : (encCoil s k).length ≤ 13 := by
  have coil := length_encOption_le
    (f := fun c : CoilDef => enc8 c.tubes ++ enc8 c.elevations ++ enc16 c.dims.cells ++ enc16 c.design ++ enc16 c.step
      ++ enc16 (baseCell s.geometry k)) (n := 10) (fun _ => by simp) (s.coil k)
  simp only [encCoil, List.length_append, length_enc8, length_encBool]
  omega

theorem length_encService (s : State) (n : Nat) : (encService s n).length = 2 := by simp [encService]

theorem length_encAnchor_le (s : State) (n : Nat) : (encAnchor s n).length ≤ 11 := by
  have primary := length_encOption_le (f := fun ch => enc8 ch ++ encService s ch) (n := 3)
    (fun _ => by simp [length_encService]) (Table.find s.cfg.primaries n)
  have alternate := length_encOption_le
    (f := fun x : Alternate => enc8 x.channel ++ encInt16 x.offset ++ encService s x.channel) (n := 5)
    (fun _ => by simp [length_encService]) (Table.find s.cfg.alternates n)
  simp only [encAnchor, List.length_append, length_enc8]
  omega

theorem length_encChannelAnchors_le (s : State) (n : Nat) : (encChannelAnchors s n).length ≤ 6 := by
  have primary := length_encOption_le (f := enc16) (n := 2) (fun _ => by simp) (primaryCell s n)
  have alternate := length_encOption_le (f := enc16) (n := 2) (fun _ => by simp) (alternateCell s n)
  simp only [encChannelAnchors, List.length_append]
  omega

theorem length_refused_encode (x : Refused) : x.encode.length = 2 := by simp [Refused.encode]

theorem length_parameters_encode (p : Parameters) : p.encode.length = 23 := by simp [Parameters.encode]

/-! ### Replies -/

/-- An answer given at once fits a frame. -/
def Answer.Short : Answer → Prop
  | .now _ p => p.length ≤ payloadPlaces
  | .held => True

theorem Answer.short_refused (r : Result) : (Answer.now r []).Short := Nat.zero_le _

theorem short_edit {l : Link} {expected : Nat} {refusal : State → Option Result} {clamped : State → Bool}
    {apply : State → State} {events : State → List Note} (s : State) :
    (edit l expected refusal clamped apply events s).2.Short := by
  unfold edit
  split
  · show (enc16 _).length ≤ payloadPlaces
    simp [payloadPlaces]
  · split <;>
    · show (enc16 _).length ≤ payloadPlaces
      simp [payloadPlaces]

theorem short_readChannel (channel : Nat) (s : State) : (ownReadChannel channel s).2.Short := by
  have := length_channel_encode_le (s.channel channel)
  show (if channelCount ≤ channel then ((.badArgument, []) : Result × List Byte)
    else (.ok, (s.channel channel).encode)).2.length ≤ payloadPlaces
  split
  · exact Nat.zero_le _
  · exact this.trans (by decide)

theorem short_readModuleStatus (s : State) : (ownReadModuleStatus s).2.Short := by
  refine (length_flatMap_le (n := 4) (fun k => ?_) _).trans (by rw [List.length_range]; decide)
  simp

theorem short_readChannelStatistics (l : Link) (first count : Nat) (clear : Bool) (s : State) :
    (ownReadChannelStatistics l first count clear s).2.Short := by
  unfold ownReadChannelStatistics
  split
  · exact Answer.short_refused _
  split
  · exact Answer.short_refused _
  · exact (length_flatMap_rangeOf_le (n := 11) (fun _ => by simp [ChannelStats.encode]) ..).trans (by decide)

theorem short_readSweepStatus (s : State) : (ownReadSweepStatus s).2.Short := by
  have sweep := length_encOption_le length_sweep_encode_le s.scn.sweep
  have slot := length_encPendingSlot_le s.scn.pendingSlot
  have last := length_encOption_le length_lastSweep_encode_le s.scn.lastSweep
  simp only [ownReadSweepStatus, reads, Answer.Short, List.length_append, length_encBool, length_enc16, payloadPlaces]
  omega

theorem short_readSights (first count : Nat) (s : State) : (ownReadSights first count s).2.Short := by
  have entry (k : Nat) := length_encOption_le (f := enc16) (n := 2) (fun _ => by simp) (sightCell s k)
  simp only [ownReadSights, reads, Answer.Short]
  split
  · exact Nat.zero_le _
  split
  · exact Nat.zero_le _
  split
  · exact Nat.zero_le _
  · exact (length_flatMap_rangeOf_le entry ..).trans (by decide)

/-- A read of cells covers at most 32 (R64, R99, R118). -/
theorem cellRange_le {first count n : Nat} {s : State} (h : cellRange first count s = .ok n) : n ≤ 32 := by
  unfold cellRange rangeCount at h
  split at h
  · cases h
  · split at h <;> cases h
    omega

theorem short_readCellRange {first count : Nat} {payload : State → Nat → Nat → List Byte} {s : State}
    (h : ∀ n ≤ 32, (payload s first n).length ≤ payloadPlaces) : (readCellRange first count payload s).2.Short := by
  simp only [readCellRange, reads, Answer.Short]
  split
  · exact Nat.zero_le _
  case h_2 n covered => exact h n (cellRange_le covered)

theorem short_readScanRecords (first count : Nat) (s : State) : (ownReadScanRecords first count s).2.Short := by
  refine short_readCellRange fun n hn => ?_
  have := length_flatMap_le (length_encScan_le s) (rangeOf first n)
  rw [length_rangeOf] at this
  unfold payloadPlaces
  omega

theorem short_readBias (l : Link) (clear : Bool) (s : State) : (ownReadBias l clear s).2.Short := by
  have coil (k : Nat) := length_encOption_le (fun x => (length_comparison_encode x).le) (s.coilBias k).last
  have coils := length_flatMap_le (n := 20)
    (f := fun k => encBool (s.coil k).isSome ++ encInt16 (s.coilBias k).bias ++ enc8 (s.coilBias k).disagreements
      ++ encOption Comparison.encode (s.coilBias k).last)
    (fun k => by have := coil k; simp only [List.length_append, length_encBool, length_encInt16, length_enc8]; omega)
    (List.range 8)
  unfold ownReadBias
  split
  · exact Answer.short_refused _
  · simp only [Answer.Short, biasPayload, List.length_append, length_enc16, length_enc8, payloadPlaces]
    rw [List.length_range] at coils
    omega

theorem short_acknowledge (l : Link) (zone occurrence : Nat) (s : State) :
    (ownAcknowledge l zone occurrence s).2.Short := by
  have ack (r : AlarmRecord) (x : Result) : (Answer.now x (ackPayload r)).Short := by
    simp [Answer.Short, ackPayload, AckSet.encode, payloadPlaces]
  unfold ownAcknowledge
  split
  · exact Answer.short_refused _
  split
  · exact Answer.short_refused _
  dsimp only
  split
  · exact ack ..
  split <;> exact ack ..

theorem short_readMapStatus (s : State) : (ownReadMapStatus s).2.Short := by
  have pass := length_encOption_le (fun p => (length_pass_encode p).le) (shownPass s)
  have last := length_encOption_le length_lastPass_encode_le (shownLastPass s)
  simp only [ownReadMapStatus, reads, Answer.Short, List.length_append, length_encBool, length_enc8, length_enc16,
    length_enc32, payloadPlaces]
  omega

theorem short_startFreeze (l : Link) (clearing : Bool) (s : State) : (startFreeze l clearing s).2.Short := by
  unfold startFreeze
  split
  · trivial
  · simp [Answer.Short, completionPayload, freezePayload, payloadPlaces]

/-- A read of cells of a coil gives at most 16 in the long form and 32 in the short (R148, R176). -/
theorem length_cellsPayload_le {header : List Byte} (h : header.length ≤ 16) {numbers : List Nat}
    (hn : numbers.length ≤ 32) (cells : Table CellRecord) (peaks : Table Peak) :
    (cellsPayload header numbers cells peaks).length ≤ payloadPlaces := by
  simp only [cellsPayload, encCell, longForm, List.length_append, length_encBool, payloadPlaces]
  by_cases few : numbers.length ≤ 16
  · have entries := length_flatMap_le
      (fun n => (length_encCellLong n (Table.get .blank cells n) (Table.find peaks n)).le) numbers
    simp only [few, decide_true, if_true]
    omega
  · have entries := length_flatMap_le
      (fun n => (length_encCellShort n (Table.get .blank cells n) (Table.find peaks n)).le) numbers
    simp only [few, decide_false, Bool.false_eq_true, if_false]
    omega

theorem length_readCoilCells_le {s : State} {k start count : Nat} {payload : List Nat → List Byte}
    (h : ∀ ns : List Nat, ns.length ≤ 32 → (payload ns).length ≤ payloadPlaces) :
    (readCoilCells s k start count payload).2.length ≤ payloadPlaces := by
  unfold readCoilCells
  split
  · exact Nat.zero_le _
  split
  · exact Nat.zero_le _
  split
  · exact Nat.zero_le _
  · refine h _ ?_
    simp only [cellsRead, List.length_map, List.length_range, cellsTaken]
    omega

theorem short_readCells (source k start count : Nat) (s : State) : (ownReadCells source k start count s).2.Short := by
  simp only [ownReadCells, reads, Answer.Short]
  split
  · exact Nat.zero_le _
  split
  · exact Nat.zero_le _
  · exact length_readCoilCells_le fun ns hn => length_cellsPayload_le (by simp [liveCellsHeader]) hn ..
  · split
    · exact Nat.zero_le _
    · exact length_readCoilCells_le fun ns hn => length_cellsPayload_le (by simp [frozenCellsHeader]) hn ..
    · exact Nat.zero_le _

theorem length_hotListPayload_le {list : List HotEntry} (h : list.length ≤ hotPlaces) (pass : Nat) (threshold : Int) :
    (hotListPayload list pass threshold).length ≤ 151 := by
  have entries := length_flatMap_le (fun x => (length_hotEntry_encode x).le) list
  simp only [hotListPayload, List.length_append, length_enc32, length_enc8, length_encInt16]
  unfold hotPlaces at h
  omega

theorem short_readHotList (source : Nat) {s : State} (h : HotListsShort s) : (ownReadHotList source s).2.Short := by
  obtain ⟨live, frozen⟩ := h
  simp only [ownReadHotList, reads, Answer.Short]
  split
  · exact Nat.zero_le _
  · exact (length_hotListPayload_le live ..).trans (by decide)
  · split
    · exact Nat.zero_le _
    case h_2 header _ hh =>
      have := length_hotListPayload_le (frozen _ hh) header.hotPass header.watchThreshold
      simp only [List.length_append, freezePayload, length_enc32, payloadPlaces]
      omega
    · exact Nat.zero_le _

theorem length_readZoneRange_le {first count : Nat} {payload : List Nat → List Byte}
    (h : ∀ ns : List Nat, ns.length ≤ 8 → (payload ns).length ≤ payloadPlaces) :
    (readZoneRange first count payload).2.length ≤ payloadPlaces := by
  unfold readZoneRange
  split
  · exact Nat.zero_le _
  · refine h _ ?_
    rw [length_rangeOf]
    unfold rangeCount
    omega

theorem short_readZones (source first count : Nat) (s : State) : (ownReadZones source first count s).2.Short := by
  simp only [ownReadZones, reads, Answer.Short]
  split
  · exact Nat.zero_le _
  · refine length_readZoneRange_le fun ns hn => ?_
    have := length_flatMap_le (length_encLiveZone_le s) ns
    simp only [List.length_append, length_encBool, length_enc16, payloadPlaces]
    omega
  · split
    · exact Nat.zero_le _
    case h_2 h _ _ =>
      refine length_readZoneRange_le fun ns hn => ?_
      have := length_flatMap_le (f := encFrozenZone h) (fun _ => length_encZoneEntry_le ..) ns
      simp only [List.length_append, length_encBool, length_enc16, length_enc32, payloadPlaces]
      omega
    · exact Nat.zero_le _

theorem short_readCoilTable (s : State) : (ownReadCoilTable s).2.Short := by
  have coils := length_flatMap_le (length_encCoil_le s) (List.range 8)
  rw [List.length_range] at coils
  simp only [ownReadCoilTable, reads, Answer.Short, List.length_append, length_enc16, payloadPlaces]
  omega

theorem short_readAnchors (form : ReadAnchorsForm) (s : State) : (ownReadAnchors form s).2.Short := by
  cases form with
  | byCell first count =>
    refine short_readCellRange fun n hn => ?_
    have := length_flatMap_le (length_encAnchor_le s) (rangeOf first n)
    rw [length_rangeOf] at this
    simp only [List.length_append, length_enc16, payloadPlaces]
    omega
  | byChannel first count =>
    simp only [ownReadAnchors, reads, Answer.Short]
    split
    · exact Nat.zero_le _
    · have := length_flatMap_rangeOf_le (limit := 32) (length_encChannelAnchors_le s) first (channelCount - 1) count
      simp only [List.length_append, length_enc16, payloadPlaces]
      omega

theorem short_readEvents (l : Link) (count : Nat) (s : State) : (ownReadEvents l count s).2.Short := by
  unfold ownReadEvents
  split
  · exact Answer.short_refused _
  · have loss (cursor oldest : Nat) : (lossPayload cursor oldest).length ≤ 13 := by
      unfold lossPayload
      split <;> simp
    have entries (cursor n : Nat) : ((entriesFrom s.evt cursor (min n readEventsLimit)).flatMap Event.encode).length
        ≤ 128 := by
      refine (length_flatMap_le (fun x => (length_event_encode x).le) _).trans ?_
      have : (entriesFrom s.evt cursor (min n readEventsLimit)).length ≤ 8 :=
        (List.length_take_le _ _).trans (Nat.min_le_right _ _)
      omega
    simp only [Answer.Short, List.length_append, length_enc32, length_enc8, payloadPlaces]
    have := loss (s.eventLink l).cursor s.evt.oldest
    have := entries (max (s.eventLink l).cursor s.evt.oldest) count
    omega

theorem length_statusPayload_le (s : State) (l : Link) : (statusPayload s l).length ≤ 60 := by
  have refused := length_encOption_le (f := Refused.encode) (n := 2) (fun x => (length_refused_encode x).le)
    (s.lnk.links.get l).lastRefusal
  unfold statusPayload
  simp only [List.length_append, length_enc8, length_enc16, length_enc32, length_encBool]
  generalize (encOption Refused.encode (s.lnk.links.get l).lastRefusal).length = n at refused ⊢
  omega

theorem short_readStatus (l : Link) (s : State) : (ownReadStatus l s).2.Short :=
  (length_statusPayload_le s l).trans (by decide)

theorem short_readParameters (s : State) : (ownReadParameters s).2.Short := by
  simp [ownReadParameters, reads, Answer.Short, length_parameters_encode, payloadPlaces]

theorem short_checkStore (s : State) : (ownCheckStore s).2.Short := by
  have generation := length_encOption_le (f := enc16) (n := 2) (fun _ => by simp) (imageGeneration s.nvs)
  have flying := length_encOption_le (f := fun x : Save => enc8 x.capture.image) (n := 1) (fun _ => by simp) s.nvs.save
  simp only [ownCheckStore, reads, Answer.Short, List.length_append, encValidity, length_enc8, length_encBool,
    payloadPlaces]
  omega

/-! ### Reads of exposure -/

theorem length_coilsCovered_le (s : State) (cells : List Nat) : (coilsCovered s cells).length ≤ 8 :=
  (List.length_filterMap_le _ _).trans (by simp)

/-- A read in progress keeps within its bounds when it takes a tube. -/
theorem ExposureRead.Fits.take {x : ExposureRead} (h : x.Fits) (s : State) : (x.take s).Fits := by
  obtain ⟨reply, left, taken⟩ := x
  cases reply with
  | cells clamped coils =>
    obtain ⟨cells, coils⟩ := h
    refine ⟨?_, coils⟩
    rcases left with _ | ⟨tube, rest⟩ <;> simp [ExposureRead.take] at cells ⊢ <;> omega
  | total => trivial

theorem ExposureRead.Fits.takeAll {x : ExposureRead} (h : x.Fits) (s : State) : (x.takeAll s).Fits := by
  obtain ⟨reply, left, taken⟩ := x
  cases reply with
  | cells clamped coils =>
    obtain ⟨cells, coils⟩ := h
    refine ⟨?_, coils⟩
    simpa only [ExposureRead.takeAll, List.length_append, List.length_map, List.flatten_nil, List.length_nil,
      Nat.add_zero] using cells
  | total => trivial

/-- The reply of a read fits a frame (R118, R120). -/
theorem ExposureRead.Fits.payload {x : ExposureRead} (h : x.Fits) : x.payload.length ≤ payloadPlaces := by
  obtain ⟨reply, left, taken⟩ := x
  cases reply with
  | cells clamped coils =>
    obtain ⟨few, coils⟩ := h
    have cells := length_flatMap_le (fun y => (length_takenCell_encode y).le) taken
    have steps := length_flatMap_le (f := fun c : Nat × Nat => enc16 c.1 ++ enc16 c.2) (n := 4) (fun _ => by simp) ‹List (Nat × Nat)›
    simp only [ExposureRead.payload, List.length_append, payloadPlaces]
    simp only at few
    omega
  | total zone first next generation =>
    have resume := length_encOption_le (f := enc16) (n := 2) (fun _ => by simp) next
    simp only [ExposureRead.payload, List.length_append, length_enc8, length_enc16, length_enc32, length_enc64,
      payloadPlaces]
    omega

end Sys2Proof.Machine

/-! ## What every step keeps of links, reads and saves (R163 to R166, R175, R180) -/

namespace Sys2Proof.Machine

/-! ### One link -/

/-- The commands that a read of exposure holds, and those that a save holds. -/
def ReadsExposure (code : Byte) : Prop := code = 0x0F ∨ code = 0x10
def Saves (code : Byte) : Prop := code = 0x37 ∨ code = 0x38

/-- A read is in progress, with a tube left, exactly where its request is in service. -/
def ReadHeld (read : Option ExposureRead) (x : LinkState) : Prop :=
  (read.isSome = true ↔ ∃ q, x.inService = some q ∧ ReadsExposure q.command) ∧ ∀ y, read = some y → y.left ≠ []

/-- A save that link `l` asked for is in flight exactly where its request is in service. -/
def SaveHeld (save : Option Save) (l : Link) (x : LinkState) : Prop :=
  (∃ y, save = some y ∧ y.requester = some l) ↔ ∃ q, x.inService = some q ∧ Saves q.command

theorem heldRequestsStand_iff (s : State) :
    HeldRequestsStand s ↔
      ∀ l, ReadHeld (s.map.reads.get l) (s.lnk.links.get l) ∧ SaveHeld s.nvs.save l (s.lnk.links.get l) :=
  ⟨fun ⟨reads, left, saves⟩ l => ⟨⟨reads l, left l⟩, saves l⟩,
    fun h => ⟨fun l => (h l).1.1, fun l => (h l).1.2, fun l => (h l).2⟩⟩

theorem not_saves_of_reads {code : Byte} (h : ReadsExposure code) : ¬Saves code := by
  rcases h with rfl | rfl <;> rintro (h | h) <;> cases h

section
variable {read : Option ExposureRead} {save : Option Save} {l : Link} {x y : LinkState}

theorem ReadHeld.of_inService (h : ReadHeld read x) (same : y.inService = x.inService) : ReadHeld read y := by
  unfold ReadHeld
  rwa [same]

theorem SaveHeld.of_inService (h : SaveHeld save l x) (same : y.inService = x.inService) : SaveHeld save l y := by
  unfold SaveHeld
  rwa [same]

theorem readHeld_none_free (h : x.inService = none) : ReadHeld none x := by
  simp [ReadHeld, h]

/-- Where no read is held none is in progress. -/
theorem ReadHeld.eq_none (h : ReadHeld read x) (other : ∀ q, x.inService = some q → ¬ReadsExposure q.command) :
    read = none := by
  rw [← Option.isSome_eq_false_iff.trans Option.isNone_iff_eq_none, ← Bool.not_eq_true, h.1]
  rintro ⟨q, hq, reads⟩
  exact other q hq reads

/-- A request of another command comes into service, or leaves it, beside no read. -/
theorem ReadHeld.other (h : ReadHeld read x) (before : ∀ q, x.inService = some q → ¬ReadsExposure q.command)
    (after : ∀ q, y.inService = some q → ¬ReadsExposure q.command) : ReadHeld read y := by
  rw [h.eq_none before]
  refine ⟨⟨nofun, ?_⟩, nofun⟩
  rintro ⟨q, hq, reads⟩
  exact absurd reads (after q hq)

theorem SaveHeld.other (h : SaveHeld save l x) (before : ∀ q, x.inService = some q → ¬Saves q.command)
    (after : ∀ q, y.inService = some q → ¬Saves q.command) : SaveHeld save l y :=
  ⟨fun flying => (h.1 flying).elim fun q hq => absurd hq.2 (before q hq.1), fun ⟨q, hq, saves⟩ => absurd saves (after q hq)⟩

theorem LinkState.answer_inService (r : Result) (p : List Byte) (x : LinkState) : (x.answer r p).inService = none := by
  unfold LinkState.answer
  split
  case h_1 h => exact h
  case h_2 => rfl

theorem LinkState.answer_free {r : Result} {p : List Byte} (h : x.inService = none) : x.answer r p = x := by
  simp [LinkState.answer, h]

/-- The request in service answered takes the place that was kept for it (R166). -/
theorem LinkState.Bounded.answer (h : x.Bounded) (r : Result) (p : List Byte) : (x.answer r p).Bounded := by
  obtain ⟨queue, rest⟩ := h
  unfold LinkState.answer
  split
  · exact ⟨queue, rest⟩
  case h_2 q hq =>
    refine ⟨?_, rest⟩
    simp only [hq, Option.isSome_some, if_true] at queue
    simp only [LinkState.enqueue, List.length_append, List.length_singleton, Option.isSome_none, Bool.false_eq_true,
      if_false]
    omega

theorem LinkState.answer_payloads {r : Result} {p : List Byte} (hp : p.length ≤ payloadPlaces)
    (h : ∀ z ∈ x.queue, z.payload.length ≤ payloadPlaces) :
    ∀ z ∈ (x.answer r p).queue, z.payload.length ≤ payloadPlaces := by
  unfold LinkState.answer
  split
  · exact h
  · intro z hz
    obtain old | new := List.mem_append.1 hz
    · exact h z old
    · rw [List.mem_singleton.1 new]
      exact hp

/-- What an operation's end does to a link: the request it held is answered, any other stands. -/
theorem LinkState.joined_cases (commands : List Byte) (starter : Link) (payload : List Byte) (l : Link)
    (x : LinkState) :
    x.joined commands starter payload l = x ∨
      ∃ q, x.inService = some q ∧ q.command ∈ commands ∧ ∃ r, x.joined commands starter payload l = x.answer r payload := by
  cases h : x.inService with
  | none => exact .inl (LinkState.joined_free h)
  | some q =>
    by_cases hq : q.command ∈ commands
    · exact .inr ⟨q, rfl, hq, _, LinkState.joined_held h hq⟩
    · exact .inl (LinkState.joined_other h hq)

end

/-! ### What a change keeps -/

/-- The bounds of links and replies, and the requests held, stand in `t` when they stand in `s`. -/
structure DeskKept (s t : State) : Prop where
  bounded : LinksBounded s → LinksBounded t
  fit : ResponsesFit s → ResponsesFit t
  held : HeldRequestsStand s → HeldRequestsStand t

/-- Besides, a link with no request in service is as it was. -/
structure QuietlyKept (s t : State) : Prop extends DeskKept s t where
  free : ∀ l, (s.lnk.links.get l).inService = none → t.lnk.links.get l = s.lnk.links.get l

theorem DeskKept.trans {s t u : State} (h : DeskKept s t) (h' : DeskKept t u) : DeskKept s u :=
  ⟨h'.bounded ∘ h.bounded, h'.fit ∘ h.fit, h'.held ∘ h.held⟩

theorem QuietlyKept.trans {s t u : State} (h : QuietlyKept s t) (h' : QuietlyKept t u) : QuietlyKept s u where
  toDeskKept := h.toDeskKept.trans h'.toDeskKept
  free l hl := (h'.free l ((congrArg LinkState.inService (h.free l hl)).trans hl)).trans (h.free l hl)

/-- A change of none of the parts that the bounds read. -/
theorem QuietlyKept.of_eq {s t : State} (links : t.lnk.links = s.lnk.links) (reads : t.map.reads = s.map.reads)
    (save : t.nvs.save = s.nvs.save) (hot : HotListsShort s → HotListsShort t) : QuietlyKept s t where
  bounded h := by rwa [LinksBounded, links]
  fit := by
    rintro ⟨short, fits, payloads⟩
    exact ⟨hot short, by rwa [reads], by rwa [links]⟩
  held h := by rwa [HeldRequestsStand, reads, links, save]
  free l _ := by rw [links]

theorem LinksBounded.onLink {s : State} (h : LinksBounded s) (l : Link) {f : LinkState → LinkState}
    (bounded : (s.lnk.links.get l).Bounded → (f (s.lnk.links.get l)).Bounded) : LinksBounded (onLink s l f) := by
  intro m
  by_cases same : m = l
  · subst same
    rw [onLink_get_same]
    exact bounded (h m)
  · rw [onLink_get_other s f same]
    exact h m

theorem HeldRequestsStand.onLink {s : State} (h : HeldRequestsStand s) (l : Link) {f : LinkState → LinkState}
    (inService : (f (s.lnk.links.get l)).inService = (s.lnk.links.get l).inService) :
    HeldRequestsStand (onLink s l f) := by
  rw [heldRequestsStand_iff] at h ⊢
  intro m
  obtain ⟨read, save⟩ := h m
  by_cases same : m = l
  · subst same
    rw [onLink_get_same]
    exact ⟨read.of_inService inService, save.of_inService inService⟩
  · rw [onLink_get_other s f same]
    exact ⟨read, save⟩

/-- A change of one link that leaves its request in service. -/
theorem DeskKept.onLink (s : State) (l : Link) {f : LinkState → LinkState}
    (bounded : (s.lnk.links.get l).Bounded → (f (s.lnk.links.get l)).Bounded)
    (payloads : (∀ z ∈ (s.lnk.links.get l).queue, z.payload.length ≤ payloadPlaces) →
      ∀ z ∈ (f (s.lnk.links.get l)).queue, z.payload.length ≤ payloadPlaces)
    (inService : (f (s.lnk.links.get l)).inService = (s.lnk.links.get l).inService) :
    DeskKept s (onLink s l f) where
  bounded h := h.onLink l bounded
  fit := by
    rintro ⟨short, fits, all⟩
    refine ⟨short, fits, fun m => ?_⟩
    by_cases same : m = l
    · subst same
      rw [onLink_get_same]
      exact payloads (all m)
    · rw [onLink_get_other s f same]
      exact all m
  held h := h.onLink l inService

/-! ### Quiet changes -/

theorem QuietlyKept.joined (s : State) {commands : List Byte} (starter : Link) {payload : List Byte}
    (others : ∀ c ∈ commands, c = stopMappingCode ∨ c = freezeMapCode ∨ c = freezeAndClearPeaksCode)
    (short : payload.length ≤ 8) :
    QuietlyKept s (s.withLnk (answerAllJoined commands starter payload s).lnk) := by
  have other {q : InService} (hq : q.command ∈ commands) : ¬ReadsExposure q.command ∧ ¬Saves q.command := by
    unfold ReadsExposure Saves
    rcases others _ hq with h | h | h <;> rw [h] <;> decide
  refine ⟨⟨fun h l => ?_, fun ⟨hot, fits, payloads⟩ => ⟨hot, fits, fun l => ?_⟩, fun h => ?_⟩, fun l hl => ?_⟩
  · rw [State.withLnk_lnk, answerAllJoined_get]
    rcases LinkState.joined_cases commands starter payload l (s.lnk.links.get l) with e | ⟨-, -, -, r, e⟩ <;> rw [e]
    · exact h l
    · exact (h l).answer r payload
  · rw [State.withLnk_lnk, answerAllJoined_get]
    rcases LinkState.joined_cases commands starter payload l (s.lnk.links.get l) with e | ⟨-, -, -, r, e⟩ <;> rw [e]
    · exact payloads l
    · exact LinkState.answer_payloads (short.trans (by decide)) (payloads l)
  · rw [heldRequestsStand_iff] at h ⊢
    intro l
    rw [State.withLnk_lnk, answerAllJoined_get]
    obtain ⟨read, save⟩ := h l
    rcases LinkState.joined_cases commands starter payload l (s.lnk.links.get l) with e | ⟨q, hq, joins, r, e⟩ <;> rw [e]
    · exact ⟨read, save⟩
    · obtain ⟨noRead, noSave⟩ := other joins
      have free := LinkState.answer_inService r payload (s.lnk.links.get l)
      refine ⟨read.other (fun p hp => ?_) (fun p hp => nomatch free.symm.trans hp),
        save.other (fun p hp => ?_) (fun p hp => nomatch free.symm.trans hp)⟩ <;> cases hq.symm.trans hp
      · exact noRead
      · exact noSave
  · rw [State.withLnk_lnk, answerAllJoined_get]
    exact LinkState.joined_free hl

/-- A read answered: its request leaves service with it. -/
theorem QuietlyKept.answerRead {s : State} {l : Link} {x y : ExposureRead} (running : s.map.reads.get l = some x)
    (fits : x.Fits → y.Fits) : QuietlyKept s (answerRead s l y) := by
  have here : (Machine.answerRead s l y).lnk.links.get l = (s.lnk.links.get l).answer y.result y.payload :=
    onLink_get_same (setRead s l none) l (LinkState.answer y.result y.payload)
  have frame := answerRead_frame s l y
  refine ⟨⟨fun h m => ?_, fun ⟨hot, reads, payloads⟩ => ⟨hot, fun m z hz => ?_, fun m => ?_⟩, fun h => ?_⟩, fun m hm => ?_⟩
  · by_cases same : m = l
    · subst same
      rw [here]
      exact (h m).answer _ _
    · rw [frame.links m same]
      exact h m
  · by_cases same : m = l
    · subst same
      rw [answerRead_get_same] at hz
      cases hz
    · rw [frame.reads m same] at hz
      exact reads m z hz
  · by_cases same : m = l
    · subst same
      rw [here]
      exact LinkState.answer_payloads (fits (reads m x running)).payload (payloads m)
    · rw [frame.links m same]
      exact payloads m
  · rw [heldRequestsStand_iff] at h ⊢
    intro m
    obtain ⟨read, save⟩ := h m
    by_cases same : m = l
    · subst same
      have free := LinkState.answer_inService y.result y.payload (s.lnk.links.get m)
      rw [here, answerRead_get_same]
      obtain ⟨q, hq, reads⟩ := read.1.1 (by rw [running]; rfl)
      refine ⟨readHeld_none_free free, save.other (fun p hp => ?_) fun p hp => nomatch free.symm.trans hp⟩
      cases hq.symm.trans hp
      exact not_saves_of_reads reads
    · rw [frame.links m same, frame.reads m same]
      exact ⟨read, save⟩
  · by_cases same : m = l
    · subst same
      rw [here]
      exact LinkState.answer_free hm
    · exact frame.links m same

theorem copyCell_header (clearing : Bool) (s : State) (n : Nat) :
    (copyCell clearing s n).frz.header = s.frz.header := by
  unfold copyCell
  dsimp only
  split <;> rfl

/-- A quiet chain of changes keeps what the desk keeps. -/
theorem Effect.quietlyKept {loud : Bool} {s t : State} (h : Effect loud s t) (quiet : loud = false) :
    QuietlyKept s t := by
  induction h with
  | trans _ _ first second => exact (first quiet).trans (second quiet)
  | links | loaded | takeRead | readCells | readZone | saveConfig | saveExposure | saveEnds => cases quiet
  | joined s commands starter payload others short => exact .joined s starter others short
  | answerRead s l x y running whole =>
    refine .answerRead running fun fits => ?_
    rcases whole with rfl | ⟨rfl, -⟩
    · exact fits.takeAll s
    · exact fits.take s
  | scanner s x kept =>
    rw [kept]
    exact .of_eq rfl rfl rfl id
  | mapCounters s x kept =>
    rw [kept]
    exact .of_eq rfl rfl rfl id
  | writeTube s p c =>
    rw [writeTube_frame]
    exact .of_eq rfl rfl rfl id
  | stop s walking =>
    refine .of_eq rfl ?_ rfl fun ⟨_, frozen⟩ => ⟨Nat.zero_le _, frozen⟩
    simp only [stoppedBlocks, abandonedMap]
    split <;> rfl
  | evaluate s pass endUptime =>
    have hotList := evaluatePass_hotList pass endUptime s
    rw [evaluatePass_frame] at hotList ⊢
    refine .of_eq rfl rfl rfl fun ⟨_, frozen⟩ => ⟨?_, frozen⟩
    rw [hotList]
    exact List.length_take_le _ _
  | copyCell s clearing n =>
    have header := copyCell_header clearing s n
    rw [copyCell_frame] at header ⊢
    exact .of_eq rfl rfl rfl fun ⟨live, frozen⟩ => ⟨live, fun x hx => frozen x (header.symm.trans hx)⟩
  | fillFrozen s f =>
    refine .of_eq rfl rfl rfl fun ⟨live, _⟩ => ⟨live, ?_⟩
    rintro _ ⟨⟩
    exact live
  | settings s x kept =>
    rw [kept]
    exact .of_eq rfl rfl rfl id
  | editCoil s k entry =>
    refine .of_eq rfl rfl rfl fun ⟨live, frozen⟩ => ⟨?_, fun x hx => ?_⟩
    · exact (congrArg List.length (dropZones_hotList (Table.set s.cfg.coils k entry) s.alm)).trans_le live
    · have header : (applyCoilEdit k entry s).frz.header = some x := hx
      simp only [applyCoilEdit, releaseDependents, State.withCfg_frz] at header
      split at header
      · exact frozen x header
      · cases header
  | _ => exact .of_eq rfl rfl rfl id

end Sys2Proof.Machine

/-! ## What the request service, the receivers and the saves keep of links (O57) -/

namespace Sys2Proof.Machine

/-! ### Owners -/

/-- What an owner leaves, and answers, keeps what the desk keeps: an answer given at once is short, and a request held
is that of the read or the save begun, or of neither. -/
def OwnerKeeps (l : Link) (code : Byte) (s : State) (done : State × Answer) : Prop :=
  match done.2 with
  | .now _ p => QuietlyKept s done.1 ∧ (HotListsShort s → p.length ≤ payloadPlaces)
  | .held =>
    (QuietlyKept s done.1 ∧ ¬ReadsExposure code ∧ ¬Saves code) ∨
      (ReadsExposure code ∧ ∃ x : ExposureRead, done.1 = setRead s l (some x) ∧ x.Fits ∧ x.left ≠ []) ∨
      (Saves code ∧ s.nvs.save = none ∧ ∃ c, done.1 = withSave s (some { capture := c, requester := some l }))

/-- An owner that begins neither a read nor a save. -/
theorem OwnerKeeps.of_quiet {l : Link} {code : Byte} {s : State} {done : State × Answer}
    (kept : QuietlyKept s done.1) (short : HotListsShort s → done.2.Short)
    (other : ¬ReadsExposure code ∧ ¬Saves code) : OwnerKeeps l code s done := by
  obtain ⟨t, _ | _⟩ := done
  · exact ⟨kept, short⟩
  · exact .inl ⟨kept, other⟩

/-- The answer of every owner fits a frame (R175). -/
theorem short_owner {i : Instr} {f : Owner} (h : ownerOf i = some f) (quiet : Effect.beginsReadOrSave i = false)
    {s : State} (hot : HotListsShort s) : (f s).2.Short := by
  cases i <;> cases h
  case readExposure | zoneExposureTotal | saveConfiguration | saveExposure => cases quiet
  case readStatus => exact short_readStatus ..
  case readCoilTable => exact short_readCoilTable s
  case readCells => exact short_readCells ..
  case readHotList => exact short_readHotList _ hot
  case readZones => exact short_readZones ..
  case readMapStatus => exact short_readMapStatus s
  case readChannel => exact short_readChannel ..
  case readChannelStatistics => exact short_readChannelStatistics ..
  case readModuleStatus => exact short_readModuleStatus s
  case readSweepStatus => exact short_readSweepStatus s
  case readSights => exact short_readSights ..
  case readScanRecords => exact short_readScanRecords ..
  case readAnchors => exact short_readAnchors ..
  case readBias => exact short_readBias ..
  case readEvents => exact short_readEvents ..
  case readParameters => exact short_readParameters s
  case checkStore => exact short_checkStore s
  case acknowledge => exact short_acknowledge ..
  case requestSweep l tag kind =>
    unfold ownRequestSweep
    dsimp only
    split
    · split <;> exact Answer.short_refused _
    · split <;> exact Answer.short_refused _
    · exact Answer.short_refused _
  case freezeMap =>
    unfold ownFreezeMap
    split
    · exact short_startFreeze ..
    · trivial
  case freezeAndClearPeaks =>
    unfold ownFreezeAndClearPeaks
    split
    · exact short_startFreeze ..
    · split
      · trivial
      · exact Answer.short_refused _
  case clearFlags => unfold ownClearFlags; split <;> exact Answer.short_refused _
  case setMask => unfold ownSetMask; split <;> exact Answer.short_refused _
  case startMapping => unfold ownStartMapping; split_ifs <;> exact Answer.short_refused _
  case stopMapping =>
    unfold ownStopMapping
    split
    · exact Answer.short_refused _
    split
    · exact Answer.short_refused _
    split <;> trivial
  case cancelSweep => exact Answer.short_refused _
  case clearPeaks l tag form =>
    cases form with
    | all => exact Answer.short_refused _
    | coil k =>
      simp only [ownClearPeaks]
      split_ifs <;> exact Answer.short_refused _
  case clearExposure => unfold ownClearExposure; split_ifs <;> exact Answer.short_refused _
  case setClock => exact Answer.short_refused _
  all_goals exact short_edit s

/-- The codes of the other commands are no codes of reads of exposure or of saves. -/
theorem code_of_quiet {i : Instr} {f : Owner} {r : Request} (hf : ownerOf i = some f) (hr : requestOf i = some r)
    (quiet : Effect.beginsReadOrSave i = false) : ¬ReadsExposure r.code ∧ ¬Saves r.code := by
  unfold ReadsExposure Saves
  cases i <;> cases hf <;> cases hr
  case readExposure | zoneExposureTotal | saveConfiguration | saveExposure => cases quiet
  all_goals
    dsimp only
    decide

/-- A read begun is answered with its first tube, or stays in progress with a tube left. -/
theorem ownerKeeps_beginRead {l : Link} {code : Byte} {s : State} {x : ExposureRead} (reads : ReadsExposure code)
    (fits : x.Fits) : OwnerKeeps l code s (beginRead l x s) := by
  have taken := fits.take s
  unfold beginRead
  dsimp only
  split
  case isTrue => exact ⟨.of_eq rfl rfl rfl id, fun _ => taken.payload⟩
  case isFalse more => exact .inr (.inl ⟨reads, x.take s, rfl, taken, fun none => more (by rw [none]; rfl)⟩)

theorem ownerKeeps_refused (l : Link) (code : Byte) (s : State) (r : Result) : OwnerKeeps l code s (refuse s r) :=
  ⟨.of_eq rfl rfl rfl id, fun _ => Nat.zero_le _⟩

theorem ownerKeeps_readExposure {l : Link} {code : Byte} (reads : ReadsExposure code) (first count : Nat)
    (s : State) : OwnerKeeps l code s (ownReadExposure l first count s) := by
  unfold ownReadExposure
  split
  · exact ownerKeeps_refused ..
  case h_2 n covered =>
    refine ownerKeeps_beginRead reads ⟨?_, length_coilsCovered_le ..⟩
    simp only [tubesOf_flatten, length_rangeOf, List.length_nil, Nat.zero_add]
    exact cellRange_le covered

theorem ownerKeeps_zoneExposureTotal {l : Link} {code : Byte} (reads : ReadsExposure code) (zone resume : Nat)
    (s : State) : OwnerKeeps l code s (ownZoneExposureTotal l zone resume s) := by
  unfold ownZoneExposureTotal
  split
  · exact ownerKeeps_refused ..
  split
  · exact ownerKeeps_refused ..
  dsimp only
  split
  · exact ownerKeeps_refused ..
  · exact ownerKeeps_beginRead reads trivial

theorem ownerKeeps_saveConfiguration {l : Link} {code : Byte} (saves : Saves code) (s : State) :
    OwnerKeeps l code s (ownSaveConfiguration l s) := by
  unfold ownSaveConfiguration
  split
  · exact ownerKeeps_refused ..
  case isFalse idle => exact .inr (.inr ⟨saves, by simpa using idle, _, rfl⟩)

theorem ownerKeeps_saveExposure {l : Link} {code : Byte} (saves : Saves code) (s : State) :
    OwnerKeeps l code s (ownSaveExposure l s) := by
  unfold ownSaveExposure
  split
  · exact ownerKeeps_refused ..
  case isFalse idle => exact .inr (.inr ⟨saves, by simpa using idle, _, rfl⟩)

theorem ownerKeeps {i : Instr} {f : Owner} {r : Request} (hf : ownerOf i = some f) (hr : requestOf i = some r)
    (s : State) : OwnerKeeps r.link r.code s (f s) := by
  cases quiet : Effect.beginsReadOrSave i with
  | false =>
    exact .of_quiet ((Effect.quietOwner (loud := false) hf quiet s).quietlyKept rfl) (short_owner hf quiet)
      (code_of_quiet hf hr quiet)
  | true =>
    cases i <;> cases hf <;> cases quiet <;> cases hr
    · exact ownerKeeps_readExposure (.inl rfl) ..
    · exact ownerKeeps_zoneExposureTotal (.inr rfl) ..
    · exact ownerKeeps_saveConfiguration (.inl rfl) s
    · exact ownerKeeps_saveExposure (.inr rfl) s

/-! ### The request that a frame spells -/

/-- `i` is the command of a request on link `l` with this tag and code, and a payload of `n` bytes fits the code. -/
def Spells (l : Link) (tag : Byte) (code : Nat) (i : Instr) (n : Nat) : Prop :=
  (∃ p, requestOf i = some ⟨l, tag, BitVec.ofNat 8 code, p⟩) ∧ lengthFits (BitVec.ofNat 8 code) n = true

theorem parsed_bare {P : Instr → Nat → Prop} {i j : Instr} (hi : P i 0) {p : List Byte} (h : bare i p = some j) : P j p.length := by
  unfold bare at h
  split at h <;> cases h
  exact hi

theorem parsed_oneByte {P : Instr → Nat → Prop} {f : Nat → Instr} (hf : ∀ n, P (f n) 1) {p : List Byte} {j : Instr}
    (h : oneByte f p = some j) : P j p.length := by
  unfold oneByte at h
  split at h <;> cases h
  exact hf _

theorem parsed_wordByte {P : Instr → Nat → Prop} {f : Nat → Nat → Instr} (hf : ∀ n m, P (f n m) 3) {p : List Byte} {j : Instr}
    (h : wordByte f p = some j) : P j p.length := by
  unfold wordByte at h
  split at h <;> cases h
  exact hf _ _

theorem parsed_byteWord {P : Instr → Nat → Prop} {f : Nat → Nat → Instr} (hf : ∀ n m, P (f n m) 3) {p : List Byte} {j : Instr}
    (h : byteWord f p = some j) : P j p.length := by
  unfold byteWord at h
  split at h <;> cases h
  exact hf _ _

theorem parsed_oneFlag {P : Instr → Nat → Prop} {f : Bool → Instr} (hf : ∀ b, P (f b) 1) {p : List Byte} {j : Instr}
    (h : oneFlag f p = some j) : P j p.length := by
  unfold oneFlag at h
  split at h
  · obtain ⟨b, -, rfl⟩ := Option.map_eq_some_iff.1 h
    exact hf b
  · cases h

theorem parsed_editByte {P : Instr → Nat → Prop} {f : Nat → Nat → Instr} (hf : ∀ n m, P (f n m) 3) {p : List Byte} {j : Instr}
    (h : editByte f p = some j) : P j p.length := by
  unfold editByte at h
  split at h <;> cases h
  exact hf _ _

theorem parsed_editWord {P : Instr → Nat → Prop} {f : Nat → Nat → Instr} (hf : ∀ n m, P (f n m) 4) {p : List Byte} {j : Instr}
    (h : editWord f p = some j) : P j p.length := by
  unfold editWord at h
  split at h <;> cases h
  exact hf _ _

theorem spells_parseAnchors {l : Link} {tag : Byte} {p : List Byte} {i : Instr} (h : parseAnchors l tag p = some i) :
    Spells l tag 0x0D i p.length := by
  unfold parseAnchors at h
  split at h
  · split at h <;> cases h
    exact ⟨⟨_, rfl⟩, rfl⟩
  · split at h <;> cases h
    exact ⟨⟨_, rfl⟩, rfl⟩
  · cases h

theorem spells_parseSweep {l : Link} {tag : Byte} {p : List Byte} {i : Instr} (h : parseSweep l tag p = some i) :
    Spells l tag 0x20 i p.length := by
  unfold parseSweep at h
  split at h
  · split at h
    · cases h
      exact ⟨⟨_, rfl⟩, rfl⟩
    · split at h <;> cases h
      exact ⟨⟨_, rfl⟩, rfl⟩
  · split at h <;> cases h
    exact ⟨⟨_, rfl⟩, rfl⟩
  · cases h

theorem spells_parseClearPeaks {l : Link} {tag : Byte} {p : List Byte} {i : Instr}
    (h : parseClearPeaks l tag p = some i) : Spells l tag 0x33 i p.length := by
  unfold parseClearPeaks at h
  split at h
  · split at h <;> cases h
    exact ⟨⟨_, rfl⟩, rfl⟩
  · split at h <;> cases h
    exact ⟨⟨_, rfl⟩, rfl⟩
  · cases h

theorem spells_parseDefineChannel {l : Link} {tag : Byte} {p : List Byte} {i : Instr}
    (h : parseDefineChannel l tag p = some i) : Spells l tag 0x42 i p.length := by
  unfold parseDefineChannel at h
  split at h
  · split at h <;> cases h
    exact ⟨⟨_, rfl⟩, rfl⟩
  · split at h <;> cases h
    exact ⟨⟨_, rfl⟩, rfl⟩
  · cases h

/-- A payload of `n` bytes fits Define Sights when it holds a list of some `k` entries of 1 or 3 bytes (R46, R167). -/
theorem lengthFits_defineSights {n k : Nat} (few : k ≤ sightListPlaces) (low : 7 + k ≤ n) (high : n ≤ 7 + 3 * k)
    (even : (n - (7 + k)) % 2 = 0) : lengthFits 0x49 n = true :=
  List.any_eq_true.2 ⟨k, List.mem_range.2 (by omega), decide_eq_true ⟨low, high, even⟩⟩

/-- A payload of `n` bytes fits Set Parameters when it holds a list of some `k` pairs of 5 bytes (R167, R178). -/
theorem lengthFits_setParameters {n k : Nat} (some : 1 ≤ k) (few : k ≤ parameterListPlaces) (exact : n = 3 + 5 * k) :
    lengthFits 0x4D n = true :=
  List.any_eq_true.2 ⟨k, List.mem_range'_1.2 (by omega), decide_eq_true exact⟩

theorem length_of_parseEntries {n : Nat} {p : List Byte} {entries : List (Option Nat)}
    (h : parseEntries n p = some entries) : n ≤ p.length ∧ p.length ≤ 3 * n ∧ (p.length - n) % 2 = 0 := by
  fun_induction parseEntries n p generalizing entries with
  | case1 => exact ⟨Nat.le_refl _, Nat.le_refl _, rfl⟩
  | case2 n rest ih =>
    obtain ⟨_, inner, -⟩ := Option.map_eq_some_iff.1 h
    have := ih inner
    simp only [List.length_cons]
    omega
  | case3 n x y rest ih =>
    obtain ⟨_, inner, -⟩ := Option.map_eq_some_iff.1 h
    have := ih inner
    simp only [List.length_cons]
    omega
  | case4 => cases h

theorem length_of_parsePairs {n : Nat} {p : List Byte} {pairs : List ParameterPair} (h : parsePairs n p = some pairs) :
    p.length = 5 * n := by
  fun_induction parsePairs n p generalizing pairs with
  | case1 => rfl
  | case2 n k x y z w rest ih =>
    obtain ⟨_, inner, -⟩ := Option.map_eq_some_iff.1 h
    have := ih inner
    simp only [List.length_cons]
    omega
  | case3 => cases h

theorem spells_parseDefineSights {l : Link} {tag : Byte} {p : List Byte} {i : Instr}
    (h : parseDefineSights l tag p = some i) : Spells l tag 0x49 i p.length := by
  unfold parseDefineSights at h
  split at h
  · split at h
    case isTrue few =>
      obtain ⟨entries, inner, rfl⟩ := Option.map_eq_some_iff.1 h
      have := length_of_parseEntries inner
      refine ⟨⟨_, rfl⟩, lengthFits_defineSights few ?_ ?_ ?_⟩ <;> simp only [List.length_cons] <;> omega
    · cases h
  · cases h

theorem spells_parseDefineZone {l : Link} {tag : Byte} {p : List Byte} {i : Instr}
    (h : parseDefineZone l tag p = some i) : Spells l tag 0x4B i p.length := by
  unfold parseDefineZone at h
  split at h
  · split at h <;> cases h
    exact ⟨⟨_, rfl⟩, rfl⟩
  · cases h

theorem spells_parseSetParameters {l : Link} {tag : Byte} {p : List Byte} {i : Instr}
    (h : parseSetParameters l tag p = some i) : Spells l tag 0x4D i p.length := by
  unfold parseSetParameters at h
  split at h
  · split at h
    case isTrue few =>
      obtain ⟨pairs, inner, rfl⟩ := Option.map_eq_some_iff.1 h
      have := length_of_parsePairs inner
      refine ⟨⟨_, rfl⟩, lengthFits_setParameters few.1 few.2 ?_⟩
      simp only [List.length_cons]
      omega
    · cases h
  · cases h

theorem spells_parseSetEditRights {l : Link} {tag : Byte} {p : List Byte} {i : Instr}
    (h : parseSetEditRights l tag p = some i) : Spells l tag 0x4E i p.length := by
  unfold parseSetEditRights at h
  split at h
  · split at h <;> cases h
    exact ⟨⟨_, rfl⟩, rfl⟩
  · cases h

/-- A payload read as a command is the payload of a request of that command (R171). -/
theorem spells_of_parse {l : Link} {tag code : Byte} {p : List Byte} {i : Instr}
    (h : parseRequest l tag code p = some i) : Spells l tag code.toNat i p.length := by
  unfold parseRequest at h
  generalize code.toNat = n at h ⊢
  split at h
  case h_1 | h_2 | h_6 | h_9 | h_10 | h_18 | h_20 | h_24 | h_25 | h_26 | h_29 | h_31 | h_32
      | h_33 => exact parsed_bare ⟨⟨_, rfl⟩, rfl⟩ h
  case h_4 | h_7 | h_17 | h_28 => exact parsed_oneByte (fun _ => ⟨⟨_, rfl⟩, rfl⟩) h
  case h_11 | h_12 | h_15 => exact parsed_wordByte (fun _ _ => ⟨⟨_, rfl⟩, rfl⟩) h
  case h_16 | h_23 => exact parsed_byteWord (fun _ _ => ⟨⟨_, rfl⟩, rfl⟩) h
  case h_14 => exact parsed_oneFlag (fun _ => ⟨⟨_, rfl⟩, rfl⟩) h
  case h_35 | h_37 | h_38 | h_46 => exact parsed_editByte (fun _ _ => ⟨⟨_, rfl⟩, rfl⟩) h
  case h_40 | h_42 | h_44 => exact parsed_editWord (fun _ _ => ⟨⟨_, rfl⟩, rfl⟩) h
  case h_13 => exact spells_parseAnchors h
  case h_19 => exact spells_parseSweep h
  case h_27 => exact spells_parseClearPeaks h
  case h_36 => exact spells_parseDefineChannel h
  case h_43 => exact spells_parseDefineSights h
  case h_45 => exact spells_parseDefineZone h
  case h_47 => exact spells_parseSetParameters h
  case h_48 => exact spells_parseSetEditRights h
  case h_50 => cases h
  case h_3 => unfold parseReadCells at h; split at h <;> cases h; exact ⟨⟨_, rfl⟩, rfl⟩
  case h_5 => unfold parseReadZones at h; split at h <;> cases h; exact ⟨⟨_, rfl⟩, rfl⟩
  case h_21 => unfold parseClearFlags at h; split at h <;> cases h; exact ⟨⟨_, rfl⟩, rfl⟩
  case h_30 => unfold parseSetClock at h; split at h <;> cases h; exact ⟨⟨_, rfl⟩, rfl⟩
  case h_34 => unfold parseDefineCoil at h; split at h <;> cases h; exact ⟨⟨_, rfl⟩, rfl⟩
  case h_39 => unfold parseAssignAnchor at h; split at h <;> cases h; exact ⟨⟨_, rfl⟩, rfl⟩
  case h_41 => unfold parseAssignAlternate at h; split at h <;> cases h; exact ⟨⟨_, rfl⟩, rfl⟩
  case h_8 =>
    unfold parseStatistics at h
    split at h
    · obtain ⟨b, -, rfl⟩ := Option.map_eq_some_iff.1 h
      exact ⟨⟨_, rfl⟩, rfl⟩
    · cases h
  case h_22 =>
    unfold parseSetMask at h
    split at h
    · obtain ⟨b, -, rfl⟩ := Option.map_eq_some_iff.1 h
      exact ⟨⟨_, rfl⟩, rfl⟩
    · cases h
  case h_49 =>
    unfold parseSetAutoStart at h
    split at h
    · obtain ⟨b, -, rfl⟩ := Option.map_eq_some_iff.1 h
      exact ⟨⟨_, rfl⟩, rfl⟩
    · cases h

/-! ### The request service -/

theorem enqueue_bounded {x : LinkState} (h : x.Bounded) (room : x.queue.length < queueLimit) (r : Response) :
    (x.enqueue r).Bounded := by
  obtain ⟨-, rest⟩ := h
  refine ⟨?_, rest⟩
  show (x.queue ++ [r]).length ≤ if x.inService.isSome then 7 else 8
  rw [List.length_append, List.length_singleton]
  unfold queueLimit at room
  split <;> omega

theorem enqueue_payloads {x : LinkState} {r : Response} (hr : r.payload.length ≤ payloadPlaces)
    (h : ∀ z ∈ x.queue, z.payload.length ≤ payloadPlaces) :
    ∀ z ∈ (x.enqueue r).queue, z.payload.length ≤ payloadPlaces := by
  intro z hz
  obtain old | new := List.mem_append.1 hz
  · exact h z old
  · rw [List.mem_singleton.1 new]
    exact hr

theorem DeskKept.replied {s : State} {l : Link} (room : (s.lnk.links.get l).queue.length < queueLimit) (tag code : Byte)
    (r : Result) {p : List Byte} (short : p.length ≤ payloadPlaces) : DeskKept s (replied s l tag code r p) :=
  .onLink s l (enqueue_bounded · room _) (enqueue_payloads short) rfl

/-- A reply whose length the hot tube lists bound. -/
theorem DeskKept.replied_of_hot {s t : State} {l : Link} (h : DeskKept s t)
    (room : (t.lnk.links.get l).queue.length < queueLimit) (tag code : Byte) (r : Result) {p : List Byte}
    (short : HotListsShort s → p.length ≤ payloadPlaces) : DeskKept s (Machine.replied t l tag code r p) where
  bounded hs := (h.bounded hs).onLink l (enqueue_bounded · room _)
  fit hs := (DeskKept.replied room tag code r (short hs.1)).fit (h.fit hs)
  held hs := (h.held hs).onLink l rfl

/-- The bounds of a link on which a request comes into service. -/
theorem LinkState.Bounded.hold {x : LinkState} (h : x.Bounded) (room : x.queue.length < queueLimit) (q : InService) :
    ({ x with inService := some q } : LinkState).Bounded := by
  obtain ⟨-, rest⟩ := h
  refine ⟨?_, rest⟩
  simp only [Option.isSome_some, if_true]
  unfold queueLimit at room
  omega

/-- A request held on a free link, with what it holds: the read and the save stand where their requests do. -/
theorem DeskKept.heldOn {s t : State} {l : Link} {tag code : Byte} (free : (s.lnk.links.get l).inService = none)
    (room : (s.lnk.links.get l).queue.length < queueLimit) (links : t.lnk.links = s.lnk.links)
    (hot : HotListsShort s → HotListsShort t)
    (reads : ∀ m, m ≠ l → t.map.reads.get m = s.map.reads.get m)
    (fits : ∀ x, t.map.reads.get l = some x → s.map.reads.get l = some x ∨ x.Fits)
    (readHeld : ReadHeld (s.map.reads.get l) (s.lnk.links.get l) →
      ReadHeld (t.map.reads.get l) { s.lnk.links.get l with inService := some { tag := tag, command := code } })
    (saveHeld : SaveHeld s.nvs.save l (s.lnk.links.get l) →
      SaveHeld t.nvs.save l { s.lnk.links.get l with inService := some { tag := tag, command := code } })
    (saves : ∀ m, m ≠ l →
      ((∃ y, t.nvs.save = some y ∧ y.requester = some m) ↔ ∃ y, s.nvs.save = some y ∧ y.requester = some m)) :
    DeskKept s (heldOn t l tag code) := by
  have here : (Machine.heldOn t l tag code).lnk.links.get l
      = { s.lnk.links.get l with inService := some { tag := tag, command := code } } := by
    rw [← links]
    exact onLink_get_same ..
  have there (m : Link) (hm : m ≠ l) : (Machine.heldOn t l tag code).lnk.links.get m = s.lnk.links.get m := by
    rw [← links]
    exact onLink_get_other t _ hm
  refine ⟨fun h m => ?_, fun ⟨short, fit, payloads⟩ => ⟨hot short, fun m x hx => ?_, fun m => ?_⟩, fun h => ?_⟩
  · by_cases same : m = l
    · subst same
      rw [here]
      exact (h m).hold room _
    · rw [there m same]
      exact h m
  · by_cases same : m = l
    · subst same
      exact (fits x hx).elim (fit m x) id
    · exact fit m x ((reads m same).symm.trans hx)
  · by_cases same : m = l
    · subst same
      rw [here]
      exact payloads m
    · rw [there m same]
      exact payloads m
  · rw [heldRequestsStand_iff] at h ⊢
    intro m
    obtain ⟨read, save⟩ := h m
    by_cases same : m = l
    · subst same
      rw [here]
      exact ⟨readHeld read, saveHeld save⟩
    · rw [there m same]
      refine ⟨?_, (saves m same).trans save⟩
      show ReadHeld (t.map.reads.get m) _
      rw [reads m same]
      exact read

/-- A request of another command held on a free link. -/
theorem DeskKept.hold_other {s : State} {l : Link} {tag code : Byte} (free : (s.lnk.links.get l).inService = none)
    (room : (s.lnk.links.get l).queue.length < queueLimit) (noRead : ¬ReadsExposure code) (noSave : ¬Saves code) :
    DeskKept s (Machine.heldOn s l tag code) := by
  refine .heldOn free room rfl id (fun _ _ => rfl) (fun _ => .inl) (fun read => read.other ?_ ?_)
    (fun save => save.other ?_ ?_) fun _ _ => Iff.rfl
  · exact fun q hq => nomatch free.symm.trans hq
  · rintro _ ⟨⟩
    exact noRead
  · exact fun q hq => nomatch free.symm.trans hq
  · rintro _ ⟨⟩
    exact noSave

/-- A read begun and its request held. -/
theorem DeskKept.hold_read {s : State} {l : Link} {tag code : Byte} (free : (s.lnk.links.get l).inService = none)
    (room : (s.lnk.links.get l).queue.length < queueLimit) (reads : ReadsExposure code) {x : ExposureRead}
    (fits : x.Fits) (left : x.left ≠ []) : DeskKept s (Machine.heldOn (setRead s l (some x)) l tag code) := by
  refine .heldOn free room rfl id (fun m hm => setRead_get_other s _ hm) ?_ (fun _ => ?_) (fun save => save.other ?_ ?_)
    fun _ _ => Iff.rfl
  · rw [setRead_get_same]
    rintro _ ⟨⟩
    exact .inr fits
  · rw [setRead_get_same]
    refine ⟨⟨fun _ => ⟨_, rfl, reads⟩, fun _ => rfl⟩, ?_⟩
    rintro _ ⟨⟩
    exact left
  · exact fun q hq => nomatch free.symm.trans hq
  · rintro _ ⟨⟩
    exact not_saves_of_reads reads

/-- A save begun for a link and its request held. -/
theorem DeskKept.hold_save {s : State} {l : Link} {tag code : Byte} (free : (s.lnk.links.get l).inService = none)
    (room : (s.lnk.links.get l).queue.length < queueLimit) (saves : Saves code) (idle : s.nvs.save = none) (c : Capture) :
    DeskKept s
      (Machine.heldOn (withSave s (some { capture := c, requester := some l })) l tag code) := by
  refine .heldOn free room rfl id (fun _ _ => rfl) (fun _ => .inl) (fun read => read.other ?_ ?_) (fun _ => ?_) fun m hm => ?_
  · exact fun q hq => nomatch free.symm.trans hq
  · rintro _ ⟨⟩
    exact fun reads => not_saves_of_reads reads saves
  · exact ⟨fun _ => ⟨_, rfl, saves⟩, fun _ => ⟨_, rfl, rfl⟩⟩
  · rw [idle]
    refine ⟨?_, fun ⟨_, h, _⟩ => nomatch h⟩
    rintro ⟨_, ⟨⟩, ⟨⟩⟩
    exact absurd rfl hm

/-- A good frame handed to the service keeps what the desk keeps. -/
theorem DeskKept.serve {l : Link} {tag code : Byte} {owner : Option Owner} {s : State}
    (h : ∀ f, owner = some f → OwnerKeeps l code s (f s)) : DeskKept s (serve l tag code owner s) := by
  rcases serve_cases l tag code owner s with
    ⟨-, e⟩ | ⟨room, ⟨r, e⟩ | ⟨free, f, hf, ⟨t, r, p, ht, e⟩ | ⟨t, ht, e⟩⟩⟩ <;> rw [e]
  · refine .onLink s l (fun ⟨queue, receiver, errors⟩ => ⟨queue, receiver, ?_⟩) id rfl
    show raise max16 _ ≤ max16
    unfold raise
    split <;> omega
  · exact .replied room tag code r (Nat.zero_le _)
  · have owned := h f hf
    rw [ht] at owned
    obtain ⟨kept, short⟩ := owned
    exact kept.toDeskKept.replied_of_hot (by rwa [kept.free l free]) tag code r short
  · have owned := h f hf
    rw [ht] at owned
    rcases owned with ⟨kept, noRead, noSave⟩ | ⟨reads, x, rfl, fits, left⟩ | ⟨saves, idle, c, rfl⟩
    · have here := kept.free l free
      exact kept.toDeskKept.trans
        (.hold_other (by rw [here]; exact free) (by rw [here]; exact room) noRead noSave)
    · exact .hold_read free room reads fits left
    · exact .hold_save free room saves idle c

theorem DeskKept.serveFrame (l : Link) (tag code : Byte) (payload : List Byte) (s : State) :
    DeskKept s (serveFrame l tag code payload s) := by
  refine .serve fun f hf => ?_
  unfold frameOwner at hf
  split at hf
  case h_1 i parsed =>
    obtain ⟨⟨p, hr⟩, -⟩ := spells_of_parse parsed
    have owned := ownerKeeps hf hr s
    simpa using owned
  case h_2 =>
    split at hf
    · cases hf
      have kept := (Effect.malformed (loud := false) l code payload s).quietlyKept rfl
      unfold malformed at kept ⊢
      split
      case isTrue edits =>
        rw [if_pos edits] at kept
        have short := short_edit (l := l) (expected := num16 (byteAt payload 0) (byteAt payload 1))
          (refusal := fun _ => some .badArgument) (clamped := fun _ => false) (apply := id) (events := fun _ => []) s
        refine OwnerKeeps.of_quiet kept (fun _ => short) ?_
        unfold isEditCode at edits
        unfold ReadsExposure Saves
        have := of_decide_eq_true edits
        refine ⟨?_, ?_⟩ <;> rintro (rfl | rfl) <;> revert this <;> decide
      case isFalse => exact ownerKeeps_refused ..
    · cases hf

/-! ### Receivers and transmitter -/

theorem DeskKept.setReceiver (l : Link) {r : Receiver} (h : r.Incomplete) (s : State) : DeskKept s (setReceiver l r s) :=
  .onLink s l (fun ⟨queue, _, errors⟩ => ⟨queue, h, errors⟩) id rfl

theorem DeskKept.dropFrame (l : Link) {r : Receiver} (h : r.Incomplete) (s : State) : DeskKept s (dropFrame l r s) := by
  refine .onLink s l (fun ⟨queue, _, errors⟩ => ⟨queue, h, ?_⟩) id rfl
  show raise max16 _ ≤ max16
  unfold raise
  split <;> omega

theorem huntByte_incomplete (byte : Byte) (broken : Bool) : (huntByte byte broken).Incomplete := by
  unfold huntByte
  split
  · exact .inl (by simp)
  · trivial

theorem DeskKept.addByte (l : Link) (buffer : List Byte) (s : State) : DeskKept s (addByte l buffer s) := by
  unfold Machine.addByte
  dsimp only
  split
  case isTrue short => exact .setReceiver l (r := .receiving buffer) (Or.inl short) s
  split
  case isTrue => exact .dropFrame l (r := .discarding) trivial s
  case isFalse allowed =>
    split
    case isTrue more => exact .setReceiver l (r := .receiving buffer) (Or.inr ⟨by omega, by omega, more⟩) s
    case isFalse =>
      unfold judgeFrame
      split
      · exact (DeskKept.setReceiver l (r := .hunting) trivial s).trans (.serveFrame ..)
      · exact .dropFrame l (r := .hunting) trivial s

theorem DeskKept.receiveByte (l : Link) (byte : Byte) (broken late : Bool) (s : State) :
    DeskKept s (receiveByte l byte broken late s) := by
  unfold Machine.receiveByte
  split
  · exact .setReceiver l (huntByte_incomplete ..) s
  · split
    · exact .setReceiver l (huntByte_incomplete ..) s
    split
    · exact .dropFrame l (r := .discarding) trivial s
    · exact .addByte ..
  · split
    · exact .setReceiver l (huntByte_incomplete ..) s
    · exact ⟨id, id, id⟩

theorem DeskKept.responseLeaves (l : Link) (s : State) : DeskKept s (responseLeaves l s) := by
  refine .onLink s l (fun ⟨queue, rest⟩ => ⟨?_, rest⟩) (fun h z hz => h z (List.mem_of_mem_drop hz)) rfl
  simp only [List.length_drop]
  omega

/-! ### Tubes taken -/

theorem DeskKept.takeRead {s : State} {l : Link} {x : ExposureRead} (running : s.map.reads.get l = some x)
    (more : (x.take s).left ≠ []) : DeskKept s (setRead s l (some (x.take s))) := by
  refine ⟨id, fun ⟨hot, fits, payloads⟩ => ⟨hot, fun m y hy => ?_, payloads⟩, fun h => ?_⟩
  · by_cases same : m = l
    · subst same
      rw [setRead_get_same] at hy
      cases hy
      exact (fits m x running).take s
    · rw [setRead_get_other s _ same] at hy
      exact fits m y hy
  · rw [heldRequestsStand_iff] at h ⊢
    intro m
    obtain ⟨⟨read, left⟩, save⟩ := h m
    refine ⟨?_, save⟩
    by_cases same : m = l
    · subst same
      rw [setRead_get_same]
      refine ⟨⟨fun _ => read.1 (by rw [running]; rfl), fun _ => rfl⟩, ?_⟩
      rintro _ ⟨⟩
      exact more
    · rw [setRead_get_other s _ same]
      exact ⟨read, left⟩

theorem DeskKept.takeTubes (s : State) : DeskKept s (takeTubes s) := by
  have one (s : State) (l : Link) : DeskKept s (takeTube s l) := by
    rcases takeTube_cases s l with ⟨-, h⟩ | ⟨x, hx, ⟨more, h⟩ | ⟨-, h⟩⟩ <;> rw [h]
    · exact ⟨id, id, id⟩
    · exact .takeRead hx more
    · exact (QuietlyKept.answerRead hx (·.take s)).toDeskKept
  exact ((one s .a).trans (one _ .b)).trans (one _ .e)

/-! ### Saves and resets -/

/-- A save that no link asked for, begun while none is in flight. -/
theorem DeskKept.startScheduled {s : State} (idle : s.nvs.save = none) : DeskKept s (startScheduled s) := by
  refine ⟨id, id, fun h => ?_⟩
  rw [heldRequestsStand_iff] at h ⊢
  intro l
  obtain ⟨read, save⟩ := h l
  refine ⟨read, Iff.trans ?_ save⟩
  rw [idle]
  exact ⟨by rintro ⟨_, ⟨⟩, ⟨⟩⟩, fun ⟨_, h, _⟩ => nomatch h⟩

theorem DeskKept.exposureSaveExpires (s : State) : DeskKept s (exposureSaveExpires s) := by
  unfold Machine.exposureSaveExpires
  split
  · exact ⟨id, id, id⟩
  · dsimp only
    split
    · exact ⟨id, id, id⟩
    case isFalse idle =>
      have counted : DeskKept s
          (s.withTmb { s.tmb with exposureSaveCounter := some s.cfg.parameters.exposureSavePeriod }) := ⟨id, id, id⟩
      exact counted.trans (.startScheduled (by simpa using idle))

theorem DeskKept.startWaiting {s : State} (idle : s.nvs.save = none) : DeskKept s (startWaiting s) := by
  unfold Machine.startWaiting
  split
  · have taken : DeskKept s (s.withNvs { s.nvs with waiting := false }) := ⟨id, id, id⟩
    exact taken.trans (.startScheduled idle)
  · exact ⟨id, id, id⟩

/-- The end of a save with its request answered: `t` is the state in which the save is no longer in flight. -/
theorem DeskKept.saveAnswer {s t : State} {x : Save} (flying : s.nvs.save = some x) (links : t.lnk.links = s.lnk.links)
    (reads : t.map.reads = s.map.reads) (ended : t.nvs.save = none) (hot : HotListsShort s → HotListsShort t)
    (agrees : Bool) : DeskKept s (saveAnswer agrees x t) := by
  have unasked : (∀ l, x.requester ≠ some l) → DeskKept s t := fun nobody =>
    { bounded := fun h => by rwa [LinksBounded, links]
      fit := fun ⟨short, fits, payloads⟩ => ⟨hot short, by rwa [reads], by rwa [links]⟩
      held := fun h => by
        rw [heldRequestsStand_iff] at h ⊢
        intro l
        obtain ⟨read, save⟩ := h l
        rw [reads, links, ended]
        refine ⟨read, Iff.trans ?_ save⟩
        rw [flying]
        refine ⟨?_, ?_⟩
        · rintro ⟨_, ⟨⟩, _⟩
        · rintro ⟨_, ⟨⟩, h⟩
          exact absurd h (nobody l) }
  have answered (l : Link) (asked : x.requester = some l) (r : Result) {p : List Byte} (short : p.length ≤ payloadPlaces) :
      DeskKept s (answerHeld t l r p) := by
    have here : (answerHeld t l r p).lnk.links.get l = (s.lnk.links.get l).answer r p := by
      rw [← links]
      exact onLink_get_same ..
    have there (m : Link) (hm : m ≠ l) : (answerHeld t l r p).lnk.links.get m = s.lnk.links.get m := by
      rw [← links]
      exact onLink_get_other t _ hm
    refine ⟨fun h m => ?_, fun ⟨lists, fits, payloads⟩ => ⟨hot lists, fun m y hy => fits m y ?_, fun m => ?_⟩, fun h => ?_⟩
    · by_cases same : m = l
      · subst same
        rw [here]
        exact (h m).answer r p
      · rw [there m same]
        exact h m
    · rwa [← reads]
    · by_cases same : m = l
      · subst same
        rw [here]
        exact LinkState.answer_payloads short (payloads m)
      · rw [there m same]
        exact payloads m
    · rw [heldRequestsStand_iff] at h ⊢
      intro m
      obtain ⟨read, save⟩ := h m
      show ReadHeld (t.map.reads.get m) _ ∧ SaveHeld t.nvs.save m _
      rw [reads, ended]
      by_cases same : m = l
      · subst same
        have free := LinkState.answer_inService r p (s.lnk.links.get m)
        rw [here]
        obtain ⟨q, hq, saves⟩ := save.1 ⟨x, flying, asked⟩
        refine ⟨read.other (fun z hz => ?_) (fun z hz => nomatch free.symm.trans hz),
          Iff.intro (by rintro ⟨_, ⟨⟩, _⟩) (by rintro ⟨_, h, _⟩; exact nomatch free.symm.trans h)⟩
        cases hq.symm.trans hz
        exact fun reads => not_saves_of_reads reads saves
      · rw [there m same]
        refine ⟨read, Iff.trans ?_ save⟩
        rw [flying]
        refine ⟨?_, ?_⟩
        · rintro ⟨_, ⟨⟩, _⟩
        rintro ⟨_, ⟨⟩, h⟩
        cases asked.symm.trans h
        exact absurd rfl same
  unfold Machine.saveAnswer
  split
  case h_1 nobody => exact unasked fun l h => nomatch nobody.symm.trans h
  case h_2 l asked =>
    split
    · exact answered l asked .ok (Nat.zero_le _)
    · exact answered l asked .storeFault (by simp [payloadPlaces])

theorem DeskKept.saveEnds (agrees : Bool) (s : State) : DeskKept s (saveEnds agrees s) := by
  unfold Machine.saveEnds
  split
  case h_1 => exact ⟨id, id, id⟩
  case h_2 x flying =>
    refine DeskKept.trans ?answered (.startWaiting ?idle)
    case answered =>
      exact .saveAnswer (t := appendEvent ((s.withNvs { writeImage agrees x.capture s.nvs with save := none }).withCfg
        { s.cfg with unsavedEdits := unsavedAfter agrees x.capture s.cfg }) (saveNote agrees x)) flying rfl rfl rfl id agrees
    case idle =>
      unfold Machine.saveAnswer
      split
      · rfl
      · split <;> rfl

theorem DeskKept.startUp (external strap1 strap0 : Bool) (s : State) : DeskKept s (startUp external strap1 strap0 s) := by
  refine DeskKept.trans ⟨fun _ l => ?_, fun _ => ⟨⟨Nat.zero_le _, fun _ h => nomatch (show none = some _ from h)⟩, fun l => ?_, fun l => ?_⟩, fun _ => ?_⟩
    ((Effect.appends (loud := false) (loaded external strap1 strap0 s) _).quietlyKept rfl).toDeskKept
  · cases l <;> exact ⟨Nat.zero_le _, trivial, Nat.zero_le _⟩
  · cases l <;> nofun
  · cases l <;> nofun
  · rw [heldRequestsStand_iff]
    intro l
    cases l <;>
      exact ⟨readHeld_none_free rfl, Iff.intro (fun ⟨_, h, _⟩ => nomatch h) fun ⟨_, h, _⟩ => nomatch h⟩

/-! ### Steps -/

theorem exec_deskKept_of_no_owner {i : Instr} {s t : State} (hi : ownerOf i = none) (h : exec i s = .next t) :
    DeskKept s t := by
  have quiet {t : State} (h : Effect false s t) : DeskKept s t := (h.quietlyKept rfl).toDeskKept
  cases i <;> cases hi <;> cases h
  case powerOnReset => exact .startUp ..
  case externalResetLine => exact .startUp ..
  case clockSecond => exact quiet (.clock s _ rfl)
  case sampleExpiry => exact quiet (.sampleExpires s)
  case moduleReply => exact quiet (.receiveReply ..)
  case replyTimeExpiry => exact quiet (.replyTimeEnds ..)
  case reading => exact quiet (.readingArrives ..)
  case headFault => exact quiet (.headFaultArrives ..)
  case replyTimeout => exact quiet (.replyTimeoutEnds s)
  case sweepExpiry => exact quiet (.sweepExpires s)
  case passExpiry => exact quiet (.passExpires s)
  case tubeStep => exact quiet (.tubeSteps s)
  case handOffEvaluation => exact quiet (.handsOff s)
  case tubeCopy => exact quiet (.tubeCopies s)
  case freezeCompletion => exact quiet (.freezeCompletes s)
  case saveEnd => exact .saveEnds ..
  case exposureSaveExpiry => exact .exposureSaveExpires s
  case linkByte => exact .receiveByte ..
  case responseSent => exact .responseLeaves ..
  case unknownCommandCode => exact .serveFrame ..

theorem exec_deskKept {i : Instr} {s t : State} (h : exec i s = .next t) : DeskKept s t := by
  cases hf : ownerOf i with
  | some f =>
    obtain ⟨r, hr, he⟩ := exec_of_owner hf
    cases (he s).symm.trans h
    refine .serve fun g hg => ?_
    cases hg
    exact ownerKeeps hf hr s
  | none => exact exec_deskKept_of_no_owner hf h

/-- Settles O57: a step keeps what the desk keeps. -/
theorem linksStayBounded : Obligations.LinksStayBounded := by
  unfold Obligations.LinksStayBounded
  intro s t h
  have kept : DeskKept s t := by
    unfold step at h
    split at h
    · cases h
      exact .takeTubes s
    case h_2 c rest _ =>
      have popped : DeskKept s (s.withPending rest) := ⟨id, id, id⟩
      exact popped.trans (exec_deskKept h)
  exact ⟨kept.bounded, kept.fit, kept.held⟩

end Sys2Proof.Machine

/-! ## The rows of the table, and the receivers of chapter 10 -/

namespace Sys2Proof.Machine

/-- Settles O1: by the definition of a step. -/
theorem stepRunsFrontCommand : Obligations.StepRunsFrontCommand := by
  unfold Obligations.StepRunsFrontCommand
  exact ⟨fun _ _ _ => rfl, fun s idle none => by rw [step_idle idle, takeTubes_idle none]⟩

/-- Settles O2: a request is served, and every other row has its one action. -/
theorem everyCommandCompletes : Obligations.EveryCommandCompletes := by
  unfold Obligations.EveryCommandCompletes
  intro c s
  cases hf : ownerOf c with
  | some f =>
    obtain ⟨r, -, served⟩ := exec_of_owner hf
    exact ⟨_, served s⟩
  | none => cases c <;> cases hf <;> exact ⟨_, rfl⟩

/-! ### A byte by the state of its receiver -/

theorem exec_linkByte (l : Link) (byte : Byte) (broken late : Bool) (s : State) :
    exec (.linkByte l byte broken late) s = .next (receiveByte l byte broken late s) := rfl

section
variable {s : State} {l : Link} {byte : Byte} {broken late : Bool} {buffer : List Byte}

theorem receiveByte_hunting (h : (s.lnk.links.get l).receiver = .hunting) :
    receiveByte l byte broken late s = setReceiver l (huntByte byte broken) s := by
  simp only [receiveByte, h]

theorem receiveByte_discarding (h : (s.lnk.links.get l).receiver = .discarding) :
    receiveByte l byte broken late s = if late then setReceiver l (huntByte byte broken) s else s := by
  simp only [receiveByte, h]

theorem receiveByte_late (h : (s.lnk.links.get l).receiver = .receiving buffer) :
    receiveByte l byte broken true s = setReceiver l (huntByte byte broken) s := by
  simp only [receiveByte, h, if_true]

theorem receiveByte_broken (h : (s.lnk.links.get l).receiver = .receiving buffer) :
    receiveByte l byte true false s = dropFrame l .discarding s := by
  simp only [receiveByte, h, if_true, Bool.false_eq_true, if_false]

theorem receiveByte_receiving (h : (s.lnk.links.get l).receiver = .receiving buffer) :
    receiveByte l byte false false s = addByte l (buffer ++ [byte]) s := by
  simp only [receiveByte, h, Bool.false_eq_true, if_false]
end

/-! ### A byte that joins the buffer -/

section
variable {l : Link} {buffer : List Byte} {s : State}

theorem addByte_first (h : buffer.length < 2) : addByte l buffer s = setReceiver l (.receiving buffer) s :=
  if_pos h

theorem addByte_badLength (whole : 2 ≤ buffer.length) (bad : frameLength buffer < lengthLow ∨ lengthHigh < frameLength buffer) :
    addByte l buffer s = dropFrame l .discarding s := by
  simp only [addByte, if_neg (Nat.not_lt.2 whole), if_pos bad]

theorem addByte_incomplete (good : lengthLow ≤ frameLength buffer ∧ frameLength buffer ≤ lengthHigh)
    (short : buffer.length < frameLength buffer + 4) :
    addByte l buffer s = setReceiver l (.receiving buffer) s := by
  have allowed : ¬(frameLength buffer < lengthLow ∨ lengthHigh < frameLength buffer) := by omega
  simp only [addByte, if_neg allowed, if_pos short, ite_self]

theorem addByte_last (good : lengthLow ≤ frameLength buffer ∧ frameLength buffer ≤ lengthHigh)
    (full : buffer.length = frameLength buffer + 4) : addByte l buffer s = judgeFrame l buffer s := by
  have allowed : ¬(frameLength buffer < lengthLow ∨ lengthHigh < frameLength buffer) := by omega
  have long : ¬buffer.length < 2 := by omega
  simp only [addByte, if_neg allowed, if_neg long, if_neg (show ¬buffer.length < frameLength buffer + 4 by omega)]

theorem judgeFrame_agrees (h : crcAgrees buffer = true) :
    judgeFrame l buffer s = serveFrame l (byteAt buffer 2) (byteAt buffer 3)
      ((buffer.drop 4).take (frameLength buffer - 2)) (setReceiver l .hunting s) :=
  if_pos h

theorem judgeFrame_differs (h : ¬crcAgrees buffer = true) : judgeFrame l buffer s = dropFrame l .hunting s := if_neg h

theorem crcAgrees_iff : crcAgrees buffer = true ↔
    crc16 (buffer.take (frameLength buffer + 2))
      = byteAt buffer (frameLength buffer + 2) ++ byteAt buffer (frameLength buffer + 3) :=
  decide_eq_true_iff
end

/-- Settles O3: by the state of the receiver. -/
theorem linkByteMovesReceiver : Obligations.LinkByteMovesReceiver := by
  unfold Obligations.LinkByteMovesReceiver
  intro s l byte broken late received hunted x
  refine ⟨fun h => ?_, fun h => ?_, fun buffer h => ⟨?_, ?_, ?_⟩⟩
  · rw [exec_linkByte, receiveByte_hunting h]
    rfl
  · rw [exec_linkByte, receiveByte_discarding h]
    rfl
  · rintro rfl
    rw [exec_linkByte, receiveByte_late h]
    rfl
  · rintro rfl rfl
    rw [exec_linkByte, receiveByte_broken h]
    rfl
  · rintro rfl rfl empty
    rw [exec_linkByte, receiveByte_receiving h, addByte_first (by simp [empty])]
    rfl

/-- Settles O4: by the length of the buffer and the two judgements. -/
theorem frameJudgedAtLengthAndCrc : Obligations.FrameJudgedAtLengthAndCrc := by
  unfold Obligations.FrameJudgedAtLengthAndCrc
  intro s l buffer byte h whole n dropped hunting
  have len : whole.length = buffer.length + 1 := by simp [whole]
  rw [exec_linkByte, receiveByte_receiving h]
  refine ⟨fun one bad => ?_, fun low high => ⟨fun started unfinished => ?_, fun full => ⟨fun differ => ?_, fun agree => ?_⟩⟩⟩
  · rw [addByte_badLength (by omega) bad]
    rfl
  · rw [addByte_incomplete ⟨low, high⟩ (by omega)]
    rfl
  · rw [addByte_last ⟨low, high⟩ (by omega), judgeFrame_differs (mt crcAgrees_iff.1 differ)]
    rfl
  · rw [addByte_last ⟨low, high⟩ (by omega), judgeFrame_agrees (crcAgrees_iff.2 agree)]
    rfl

/-! ### A good frame behind a queue, and the checks of the Link Controller -/

/-- A frame behind a full queue is dropped (R166). -/
theorem serve_full {l : Link} {tag code : Byte} {f : Option Owner} {s : State}
    (full : 7 ≤ (s.lnk.links.get l).queue.length) : serve l tag code f s = onLink s l LinkState.countError :=
  if_pos full

/-- A frame behind a request in service (R165). -/
theorem serve_busy {l : Link} {tag code : Byte} {f : Option Owner} {s : State}
    (room : (s.lnk.links.get l).queue.length ≤ 6) (held : (s.lnk.links.get l).inService.isSome = true) :
    serve l tag code f s = replied s l tag code .busy [] := by
  have free : ¬queueLimit ≤ (s.lnk.links.get l).queue.length := by
    unfold queueLimit
    omega
  simp only [serve, if_neg free, held, if_true, replied]

/-- Settles O7: by the definitions of the queue and of the service. -/
theorem queuesBusyFullAndSent : Obligations.QueuesBusyFullAndSent := by
  unfold Obligations.QueuesBusyFullAndSent
  intro s l tag code payload x
  refine ⟨?_, fun full => serve_full full, fun room held => serve_busy room held⟩
  show Host.Outcome.next (responseLeaves l s) = _
  simp only [responseLeaves, List.drop_one]

/-- A payload whose length does not fit its command has no owner (R167, check 4). -/
theorem serve_unfitting {s : State} {l : Link} {tag code : Byte} (hs : Free s l) (passed : linkRefusal s l code = none) :
    serve l tag code none s = replied s l tag code .badArgument [] := by
  obtain ⟨idle, room⟩ := hs
  have free : ¬queueLimit ≤ (s.lnk.links.get l).queue.length := by
    unfold queueLimit
    omega
  simp only [serve, if_neg free, idle, passed, Option.isSome_none, Bool.false_eq_true, if_false, replied]

theorem frameOwner_unfitting {l : Link} {tag code : Byte} {p : List Byte} (unfit : lengthFits code p.length = false) :
    frameOwner l tag code p = none := by
  unfold frameOwner
  split
  case h_1 i parsed =>
    obtain ⟨-, fits⟩ := spells_of_parse parsed
    rw [BitVec.ofNat_toNat, BitVec.setWidth_eq, unfit] at fits
    cases fits
  case h_2 => simp [unfit]

theorem commandNeedsRights_iff {code : Byte} (known : commandKnown code = true) :
    commandNeedsRights code = true ↔ 0x30 ≤ code.toNat := by
  simp only [commandNeedsRights, commandKnown, decide_eq_true_eq] at known ⊢
  omega

/-- Settles O8: the checks in their order; a payload of an unfitting length spells no command. -/
theorem linkControllerChecks : Obligations.LinkControllerChecks := by
  unfold Obligations.LinkControllerChecks
  intro s l tag code payload hs refused
  refine ⟨fun unknown => ?_, fun ack e => ?_, fun operating known none => ?_, fun known ack rights unfit => ?_⟩
  · show Host.Outcome.next (serveFrame l tag code payload s) = _
    rw [serveFrame, serve_refused hs (r := .unknownCommand) (by simp [linkRefusal, unknown])]
    rfl
  · subst ack e
    rw [serveFrame, serve_refused hs (r := .notPermitted) (by simp [linkRefusal, acknowledgeCode, commandKnown])]
    rfl
  · rw [serveFrame, serve_without_rights hs none known ((commandNeedsRights_iff known).2 operating)]
    rfl
  · have passed : linkRefusal s l code = .none := by
      have fromE : ¬(code = acknowledgeCode ∧ l = .e) := fun h => ack h.1 h.2
      have held : (commandNeedsRights code && !s.holdsRights l) = false := by
        cases needs : commandNeedsRights code
        · rfl
        · simp [rights ((commandNeedsRights_iff known).1 needs)]
      simp [linkRefusal, known, fromE, held]
    rw [serveFrame, frameOwner_unfitting unfit, serve_unfitting hs passed]
    rfl

end Sys2Proof.Machine

/-! ## The reset state, and the parameters, rights and clocks of chapter 11 -/

namespace Sys2Proof.Machine

/-! ### The reset state -/

theorem PerLink.forall_iff {P : Link → Prop} : (∀ l, P l) ↔ P .a ∧ P .b ∧ P .e :=
  ⟨fun h => ⟨h _, h _, h _⟩, fun ⟨a, b, e⟩ l => match l with
    | .a => a
    | .b => b
    | .e => e⟩

theorem tablesCanonical_reset : TablesCanonical State.reset where
  channels := ⟨rfl, rfl⟩
  slots := ⟨rfl, rfl⟩
  sights := rfl
  scans := rfl
  biases := ⟨rfl, rfl⟩
  cells := ⟨rfl, rfl⟩
  peaks := rfl
  exposure := ⟨rfl, rfl⟩
  zones := rfl
  records := ⟨rfl, rfl⟩
  windows := rfl
  figures := rfl
  cellCopies := ⟨rfl, rfl⟩
  peakCopies := rfl
  coils := rfl
  primaries := rfl
  alternates := rfl
  configImages := nofun
  exposureImages := nofun

theorem cellsFitGeometry_reset : CellsFitGeometry State.reset :=
  ⟨⟨rfl, rfl, nofun, Nat.zero_le _⟩, ⟨fun _ => ⟨rfl, rfl⟩, fun h => absurd rfl h, nofun⟩,
    ⟨fun _ _ => ⟨rfl, rfl, rfl, rfl, rfl, rfl⟩, nofun⟩, nofun, fun l x h => (by cases l <;> cases h), nofun⟩

theorem mapValuesInRange_reset : MapValuesInRange State.reset :=
  ⟨fun _ => ⟨⟨fun _ => rfl, fun _ => rfl⟩, nofun⟩, fun _ => ⟨nofun, nofun⟩⟩

theorem anchorsObey_reset : AnchorsObey State.reset :=
  ⟨nofun, ⟨nofun, nofun, nofun, nofun, nofun⟩, nofun⟩

theorem linksBounded_reset : LinksBounded State.reset :=
  PerLink.forall_iff.2 ⟨⟨Nat.zero_le _, trivial, Nat.zero_le _⟩, ⟨Nat.zero_le _, trivial, Nat.zero_le _⟩,
    ⟨Nat.zero_le _, trivial, Nat.zero_le _⟩⟩

theorem responsesFit_reset : ResponsesFit State.reset :=
  ⟨⟨Nat.zero_le _, nofun⟩, fun l x h => (by cases l <;> cases h), PerLink.forall_iff.2 ⟨nofun, nofun, nofun⟩⟩

theorem heldRequestsStand_reset : HeldRequestsStand State.reset := by
  rw [heldRequestsStand_iff]
  refine PerLink.forall_iff.2 ⟨?_, ?_, ?_⟩ <;>
    exact ⟨readHeld_none_free rfl, Iff.intro (by rintro ⟨_, ⟨⟩, _⟩) (by rintro ⟨_, ⟨⟩, _⟩)⟩

theorem historyConsecutive_reset : HistoryConsecutive State.reset := ⟨by decide, rfl⟩

theorem alarmsFollowMap_reset : AlarmsFollowMap State.reset :=
  ⟨fun _ => ⟨fun _ => rfl, nofun⟩, rfl, fun _ => ⟨fun _ => rfl, rfl⟩⟩

/-- Settles O60: the start-up is evaluated, and each invariant read off. -/
theorem resetMeetsInvariants : Obligations.ResetMeetsInvariants := by
  unfold Obligations.ResetMeetsInvariants
  exact ⟨rfl, tablesCanonical_reset, cellsFitGeometry_reset, mapValuesInRange_reset, anchorsObey_reset,
    linksBounded_reset, responsesFit_reset, heldRequestsStand_reset, historyConsecutive_reset,
    PerLink.forall_iff.2 ⟨rfl, rfl, rfl⟩, fun _ => rfl, alarmsFollowMap_reset, Nat.zero_le _, List.Pairwise.nil⟩

/-! ### Edits of the whole controller -/

/-- Settles O14: below the maximum the remainder is the sum itself. -/
theorem acceptedEditCounts : Obligations.AcceptedEditCounts := by
  unfold Obligations.AcceptedEditCounts
  intro s l g bounded
  have next : (s.cfg.generation + 1) % 65536 = g := by
    show _ = if s.cfg.generation < 65535 then s.cfg.generation + 1 else 0
    split <;> omega
  rw [acceptEdit, next]
  cases l <;> rfl

theorem clampInt_spec {lo hi v : Int} (h : lo ≤ hi) :
    lo ≤ clampInt lo hi v ∧ clampInt lo hi v ≤ hi ∧ (lo ≤ v → v ≤ hi → clampInt lo hi v = v) ∧
      (v < lo → clampInt lo hi v = lo) ∧ (hi < v → clampInt lo hi v = hi) := by
  unfold clampInt
  omega

/-- Settles O17: row by row, each a clamp. -/
theorem parametersClampToRange : Obligations.ParametersClampToRange := by
  unfold Obligations.ParametersClampToRange
  intro v row
  refine ⟨clampInt_spec ?_, clampInt_spec ?_, clampInt_spec ?_, clampInt_spec ?_, clampInt_spec ?_, clampInt_spec ?_,
    clampInt_spec ?_, clampInt_spec ?_, clampInt_spec ?_, clampInt_spec ?_, clampInt_spec ?_, clampInt_spec ?_,
    clampInt_spec ?_, clampInt_spec ?_, clampInt_spec ?_, ?sweep⟩
  case sweep =>
    simp only [clampParameter, clampInt]
    omega
  all_goals decide

/-- Settles O18: each of the three commands taken on a ready link. -/
theorem rightsAutoStartAndClocks : Obligations.RightsAutoStartAndClocks := by
  unfold Obligations.RightsAutoStartAndClocks
  refine ⟨fun s => ⟨raise max32 s.tmb.uptime, if s.tmb.heaterClock < max32 then s.tmb.heaterClock + 1 else 0, rfl, ?_⟩,
    fun s l tag ready => ⟨fun a b => ?_, fun on => ?_, fun value => ?_⟩⟩
  · unfold raise max32
    grind
  · exact congrArg Host.Outcome.next (serve_edit_taken ready rfl (by decide) rfl)
  · exact congrArg Host.Outcome.next (serve_edit_taken ready rfl (by decide) rfl)
  · exact congrArg Host.Outcome.next (serve_operating ready rfl (by decide) rfl)

/-! ### Set Parameters -/

/-- Parameter `n` of R178 as the number that a Set Parameters pair gives it. -/
def Parameters.value (p : Parameters) : Nat → Int
  | 1 => p.samplePeriod | 2 => p.confirmCount | 3 => p.failTime | 4 => p.sweepPeriod | 5 => p.replyTimeout
  | 6 => p.scanRetries | 7 => p.minSignal | 8 => p.scanAgeLimit | 9 => p.passPeriod | 10 => p.maxGap
  | 11 => p.holdLimit | 12 => p.establishPasses | 13 => p.disagreeLimit | 14 => p.biasShift | 15 => p.watchThreshold
  | 16 => p.exposureSavePeriod | _ => 0

/-- Every clamped value but that of parameter 15 is a natural number. -/
theorem clampParameter_nonneg {n : Nat} (h : 1 ≤ n ∧ n ≤ 16) (named : n ≠ 15) (v : Int) : 0 ≤ clampParameter n v := by
  obtain ⟨low, high⟩ := h
  interval_cases n <;> simp only [clampParameter, clampInt] <;> omega

theorem Parameters.value_set_same (p : Parameters) {n : Nat} (h : 1 ≤ n ∧ n ≤ 16) {v : Int} (nat : n ≠ 15 → 0 ≤ v) :
    (p.set n v).value n = v := by
  obtain ⟨low, high⟩ := h
  interval_cases n
  rotate_left 14
  · rfl
  all_goals exact Int.toNat_of_nonneg (nat (by decide))

theorem Parameters.value_set_other (p : Parameters) {m n : Nat} (h : m ≠ n) (v : Int) :
    (p.set n v).value m = p.value m := by
  unfold Parameters.value
  split
  case h_17 => rfl
  all_goals
    unfold Parameters.set
    split <;> trivial

theorem Parameters.setAll_cons (p : Parameters) (x : ParameterPair) (rest : List ParameterPair) :
    p.setAll (x :: rest) = (p.set x.number (clampParameter x.number x.value)).setAll rest := rfl

theorem Parameters.value_setAll_of_absent {pairs : List ParameterPair} {n : Nat} (h : ∀ x ∈ pairs, x.number ≠ n)
    (p : Parameters) : (p.setAll pairs).value n = p.value n := by
  induction pairs generalizing p with
  | nil => rfl
  | cons x rest ih =>
    rw [setAll_cons, ih fun y hy => h y (.tail _ hy), value_set_other _ (h x (.head _)).symm]

theorem Parameters.value_setAll_of_mem {pairs : List ParameterPair} (named : ∀ x ∈ pairs, 1 ≤ x.number ∧ x.number ≤ 16)
    (once : (pairs.map ParameterPair.number).Nodup) {x : ParameterPair} (h : x ∈ pairs) (p : Parameters) :
    (p.setAll pairs).value x.number = clampParameter x.number x.value := by
  induction pairs generalizing p with
  | nil => cases h
  | cons y rest ih =>
    obtain ⟨fresh, once⟩ := List.nodup_cons.1 once
    rw [setAll_cons]
    cases h with
    | head =>
      rw [value_setAll_of_absent fun z hz same => fresh (List.mem_map.2 ⟨z, hz, same⟩),
        value_set_same _ (named x (.head _)) fun other => clampParameter_nonneg (named x (.head _)) other _]
    | tail _ h => exact ih (fun z hz => named z (.tail _ hz)) once h _

theorem setParametersRefusal_eq_none {pairs : List ParameterPair}
    (named : ∀ x ∈ pairs, 1 ≤ x.number ∧ x.number ≤ 16) (once : (pairs.map ParameterPair.number).Nodup) :
    setParametersRefusal pairs = none := by
  rw [setParametersRefusal, firstRefusal_eq_none]
  simp only [List.forall_mem_cons, List.any_eq_false, decide_eq_true_eq, once, not_true, decide_false, List.not_mem_nil,
    false_implies, implies_true, and_true]
  intro x hx
  have := named x hx
  omega

theorem setParametersRefusal_eq_some {pairs : List ParameterPair}
    (bad : (∃ x ∈ pairs, x.number < 1 ∨ 16 < x.number) ∨ ¬(pairs.map ParameterPair.number).Nodup) :
    setParametersRefusal pairs = some .badArgument := by
  unfold setParametersRefusal
  cases outside : pairs.any fun x => decide (x.number < 1 ∨ 16 < x.number) with
  | true => rfl
  | false =>
    have twice : ¬(pairs.map ParameterPair.number).Nodup := by
      refine bad.resolve_left fun ⟨x, hx, out⟩ => ?_
      exact absurd (decide_eq_true out) (List.any_eq_false.1 outside x hx)
    rw [decide_eq_true twice]
    rfl

/-- Settles O16: a list of distinct parameters, applied pair by pair, gives each parameter its own pair's value. -/
theorem setParametersAppliesClamped : Obligations.SetParametersAppliesClamped := by
  unfold Obligations.SetParametersAppliesClamped
  intro s l tag pairs ready sent
  refine ⟨fun bad => ?_, fun named once => ?_⟩
  · exact congrArg Host.Outcome.next (serve_edit_refused ready rfl (by decide) (setParametersRefusal_eq_some bad))
  intro old given reload
  have value {n : Nat} : (old.setAll pairs).value n = given n (old.value n) := by
    unfold given
    split
    case h_1 x found =>
      obtain rfl : x.number = n := by simpa using List.find?_some found
      exact Parameters.value_setAll_of_mem named once (List.mem_of_find?_eq_some found) old
    case h_2 absent =>
      refine Parameters.value_setAll_of_absent (fun x hx => ?_) old
      simpa using List.find?_eq_none.1 absent x hx
  refine ⟨old.setAll pairs, ⟨value (n := 1), value (n := 2), value (n := 3), value (n := 4), value (n := 5), value (n := 6),
    value (n := 7), value (n := 8), value (n := 9), value (n := 10), value (n := 11), value (n := 12), value (n := 13),
    value (n := 14), value (n := 15), value (n := 16)⟩, ?_⟩
  exact congrArg Host.Outcome.next (serve_edit_taken ready rfl (by decide) (setParametersRefusal_eq_none named once))

end Sys2Proof.Machine

/-! ## Resets -/

namespace Sys2Proof.Machine

/-! ### The events of a start-up -/

section
variable (external strap1 strap0 : Bool) (s : State)

theorem startUp_frame : startUp external strap1 strap0 s
    = (loaded external strap1 strap0 s).withEvt (startUp external strap1 strap0 s).evt :=
  appendEvents_frame ..

end

theorem exec_reset (external strap1 strap0 : Bool) (s : State) :
    exec (if external then .externalResetLine strap1 strap0 else .powerOnReset strap1 strap0) s
      = .next (startUp external strap1 strap0 s) := by
  cases external <;> rfl

/-- Every entry of the history carries the heater clock and Clock Set as they stand. -/
def StampedNow (s : State) : Prop :=
  ∀ e ∈ s.evt.history, e.stamp = s.tmb.heaterClock ∧ e.clockSet = s.tmb.clockSet

theorem StampedNow.appendEvent {s : State} (h : StampedNow s) (n : Note) : StampedNow (appendEvent s n) := by
  rcases Nat.lt_or_ge s.evt.nextSequence max32 with below | exhausted
  · intro e he
    rw [appendEvent_evt_of_lt below] at he
    rcases List.mem_append.1 he with old | new
    · refine h e ?_
      split at old
      · exact old
      · exact List.mem_of_mem_drop old
    · obtain rfl := List.mem_singleton.1 new
      exact ⟨rfl, rfl⟩
  · intro e he
    rw [appendEvent_evt_of_exhausted exhausted] at he
    exact h e he

theorem StampedNow.appendEvents {s : State} (h : StampedNow s) (ns : List Note) : StampedNow (appendEvents s ns) := by
  induction ns generalizing s with
  | nil => exact h
  | cons n ns ih => exact ih (h.appendEvent n)

/-- The events of a start-up, by the validity of the two images (R184, step 5). -/
def startEntries (external config exposure : Bool) : List (Nat × EventKind × Nat × Int) :=
  (0, .startUp, 0, if external then 2 else 1) ::
    match config, exposure with
    | true, true => []
    | false, true => [(1, .storeFault, 0, 2)]
    | true, false => [(1, .storeFault, 1, 2)]
    | false, false => [(1, .storeFault, 0, 2), (2, .storeFault, 1, 2)]

/-- A start-up's entries and flags, image by image. -/
theorem startUp_logged (external : Bool) {u : State} (empty : u.evt.history = []) (fresh : u.evt.nextSequence = 0)
    (reset : ∀ l, ∃ mask auto, u.evt.links.get l = .reset mask auto) :
    let t := appendEvents u (startNotes external u)
    t.evt.history.map (fun e => (e.sequence, e.kind, e.subject, e.detail))
        = startEntries external u.nvs.configValid u.nvs.exposureValid ∧
      t.evt.nextSequence = t.evt.history.length ∧
      ∀ l,
        let x := t.evt.links.get l
        x.cursor = 0 ∧
          x.flags = (if u.nvs.configValid = true ∧ u.nvs.exposureValid = true then 0x100 else 0x180) ∧
          x.attention = decide (x.flags &&& ~~~x.mask ≠ 0) := by
  obtain ⟨tmb, acq, scn, map, alm, frz, ⟨history, nextSequence, links⟩, lnk, cfg, nvs, pending⟩ := u
  obtain rfl : history = [] := empty
  obtain rfl : nextSequence = 0 := fresh
  obtain ⟨configStore, exposureStore, configValid, exposureValid, save, waiting, configLost, exposureLost⟩ := nvs
  cases configValid <;> cases exposureValid <;>
    refine ⟨rfl, rfl, fun l => ?_⟩ <;> obtain ⟨mask, auto, h⟩ := reset l <;>
    simp only [appendEvents, startNotes, List.foldl_cons, List.foldl_nil, List.foldl_append, if_true, Bool.false_eq_true,
      if_false, and_self, and_false, false_and, appendEvent_link, h] <;>
    exact ⟨rfl, by simp [EventLink.setFlags, EventLink.judge, EventLink.reset, EventKind.flag], rfl⟩

/-- Settles O12: every block but EVT is as `loaded` sets it, and EVT is what the appends leave. -/
theorem resetsLeaveBlocks : Obligations.ResetsLeaveBlocks := by
  unfold Obligations.ResetsLeaveBlocks
  intro s strap1 strap0 external i notes
  refine ⟨_, exec_reset external strap1 strap0 s, ?_⟩
  have reset : ∀ l, ∃ mask auto, (loaded external strap1 strap0 s).evt.links.get l = .reset mask auto :=
    PerLink.forall_iff.2 ⟨⟨_, _, rfl⟩, ⟨_, _, rfl⟩, ⟨_, _, rfl⟩⟩
  obtain ⟨entries, counted, links⟩ := startUp_logged external (u := loaded external strap1 strap0 s) rfl rfl reset
  have stamped : StampedNow (startUp external strap1 strap0 s) := 
    .appendEvents (s := loaded external strap1 strap0 s) (fun e he => absurd he (List.not_mem_nil (a := e))) _
  rw [startUp_frame] at stamped ⊢
  refine ⟨rfl, rfl, rfl, rfl, rfl, rfl, rfl, rfl, rfl, rfl, rfl, rfl, rfl, rfl, rfl, rfl, rfl, rfl, rfl, rfl, rfl, rfl,
    rfl, rfl, rfl, rfl, rfl, rfl, entries, counted, stamped, links⟩

/-! ### What a reset loads -/

theorem cutSave_of_none {x : Store} (h : x.save = none) : cutSave x = x := by simp only [cutSave, h]

theorem cutSave_of_save {x : Store} {save : Save} (h : x.save = some save) :
    (cutSave x).configStore = (if save.capture.image = 0 then none else x.configStore) ∧
      (cutSave x).exposureStore = (if save.capture.image = 1 then none else x.exposureStore) := by
  obtain ⟨capture, requester⟩ := save
  cases capture <;> simp only [cutSave, h] <;> exact ⟨rfl, rfl⟩

/-- The accumulators that a start-up keeps (R10). -/
theorem accumulator_loaded (external strap1 strap0 : Bool) (s : State) (n : Nat) :
    (loaded external strap1 strap0 s).accumulator n =
      let source := exposureSource external s (readExposureImage (cutSave s.nvs).exposureStore)
      let image := (readConfigImage (cutSave s.nvs).configStore).getD .unconfigured
      if cellKept source.geometry (geometryOf image.coils) n then Table.get 0 source.exposure n else 0 := by
  show Table.get 0 (Table.restrict _ _) n = _
  simp only [Table.get, Table.find_restrict]
  split <;> rfl

theorem startState_cases (valid : Bool) (image : ConfigImage) :
    (startState valid image = .establishing ↔ valid ∧ image.autoStart = true ∧ image.coils ≠ []) ∧
      (startState valid image = .establishing ∨ startState valid image = .stopped) := by
  unfold startState
  cases valid <;> cases image.autoStart <;> cases image.coils <;> simp

theorem appendEvents_mask (s : State) (ns : List Note) (l : Link) :
    ((appendEvents s ns).evt.links.get l).mask = (s.evt.links.get l).mask ∧
      ((appendEvents s ns).evt.links.get l).autoClear = (s.evt.links.get l).autoClear := by
  induction ns generalizing s with
  | nil => exact ⟨rfl, rfl⟩
  | cons n ns ih =>
    rw [appendEvents_cons, (ih _).1, (ih _).2, appendEvent_link]
    exact ⟨rfl, rfl⟩

/-- Settles O13: field by field of `loaded`, which the appends leave but for EVT. -/
theorem resetsLoadImages : Obligations.ResetsLoadImages := by
  unfold Obligations.ResetsLoadImages
  intro s strap1 strap0 external i store config defaults image exposure kept
  refine ⟨_, exec_reset external strap1 strap0 s, ?_⟩
  have masks : ∀ l, ((startUp external strap1 strap0 s).evt.links.get l).mask = image.masks.get l ∧
      ((startUp external strap1 strap0 s).evt.links.get l).autoClear = image.autoClears.get l := by
    intro l
    rw [startUp, (appendEvents_mask ..).1, (appendEvents_mask ..).2]
    cases l <;> exact ⟨rfl, rfl⟩
  have accumulator (n : Nat) : (startUp external strap1 strap0 s).accumulator n
      = kept (exposureSource external s exposure) n := by
    rw [startUp_frame]
    exact accumulator_loaded external strap1 strap0 s n
  obtain ⟨establishing, stopped⟩ := startState_cases config.isSome image
  rw [startUp_frame] at masks accumulator ⊢
  refine ⟨rfl, rfl, rfl, rfl, rfl, rfl, masks, rfl, rfl, fun x hx => cutSave_of_save hx,
    fun none => by rw [show store = _ from cutSave_of_none none]; exact ⟨rfl, rfl⟩, rfl, rfl, rfl, establishing, stopped,
    rfl, rfl, rfl, rfl, rfl, fun line => ⟨?_, fun n => ?_⟩, fun power => ⟨?_, fun n x hx => ?_, fun none n => ?_⟩⟩
  · subst line
    rfl
  · subst line
    exact accumulator n
  · subst power
    rfl
  · subst power
    rw [accumulator, hx]
    rfl
  · subst power
    rw [accumulator, none]
    exact ite_self _

end Sys2Proof.Machine

/-! ## Saves -/

namespace Sys2Proof.Machine

/-! ### Captures -/

theorem find_channelImages {channels : Table Channel} (h : Table.rising channels = true) (n : Nat) :
    Table.find (channelImages channels) n = (Table.get .unused channels n).config.map fun cfg =>
      { config := cfg, retired := decide ((Table.get .unused channels n).state = .retired) } := by
  unfold channelImages Table.get
  rw [Table.find_filterMap h]
  · cases Table.find channels n with
    | none => rfl
    | some c => cases hc : c.config <;> simp [hc]
  · intro x y hy
    obtain ⟨cfg, -, rfl⟩ := Option.map_eq_some_iff.1 hy
    rfl

/-! ### Saves asked for and scheduled -/

section
variable {s : State} {l : Link} {tag : Byte}

/-- A command from a link with edit rights that its owner holds (R165, R167). -/
theorem serve_operating_held {s t : State} {code : Byte} {f : Owner} (hs : Ready s l) (hk : commandKnown code = true)
    (ha : code ≠ acknowledgeCode) (hf : f s = (t, .held)) : serve l tag code (some f) s = heldOn t l tag code :=
  serve_held hs.1 (linkRefusal_none_of_rights s l code hk ha hs.2) hf

theorem ownSaveConfiguration_idle (idle : s.nvs.save = none) : ownSaveConfiguration l s =
    (withSave s (some { capture := .config (captureConfig s), requester := some l }), .held) := by
  simp [ownSaveConfiguration, idle]

theorem ownSaveExposure_idle (idle : s.nvs.save = none) : ownSaveExposure l s =
    (withSave s (some { capture := .exposure (captureExposure s), requester := some l }), .held) := by
  simp [ownSaveExposure, idle]

theorem ownSaveConfiguration_flying (flying : s.nvs.save.isSome = true) :
    ownSaveConfiguration l s = (s, .now .busy []) := if_pos flying

theorem ownSaveExposure_flying (flying : s.nvs.save.isSome = true) : ownSaveExposure l s = (s, .now .busy []) :=
  if_pos flying

theorem exposureSaveExpires_running (running : s.tmb.exposureSaveCounter.isSome = true) :
    exposureSaveExpires s =
      let t := s.withTmb { s.tmb with exposureSaveCounter := some s.cfg.parameters.exposureSavePeriod }
      if s.nvs.save.isSome then t.withNvs { s.nvs with waiting := true } else startScheduled t := by
  obtain ⟨n, hn⟩ := Option.isSome_iff_exists.1 running
  simp only [exposureSaveExpires, hn]
  rfl
end

/-- Settles O19: the captures are read off, the owners go by the save in flight. -/
theorem savesCaptureAndHold : Obligations.SavesCaptureAndHold := by
  unfold Obligations.SavesCaptureAndHold
  intro s l tag flying image
  refine ⟨rfl, fun canonical n => find_channelImages canonical.channels.1 n, rfl, fun ready idle => ⟨?_, ?_⟩,
    fun ready busy => ⟨?_, ?_⟩, fun running => ⟨fun idle => ?_, fun busy => ?_⟩⟩
  · exact congrArg Host.Outcome.next (serve_operating_held ready rfl (by decide) (ownSaveConfiguration_idle idle))
  · exact congrArg Host.Outcome.next (serve_operating_held ready rfl (by decide) (ownSaveExposure_idle idle))
  · exact congrArg Host.Outcome.next (serve_operating ready rfl (by decide) (ownSaveConfiguration_flying busy))
  · exact congrArg Host.Outcome.next (serve_operating ready rfl (by decide) (ownSaveExposure_flying busy))
  · refine congrArg Host.Outcome.next ((exposureSaveExpires_running running).trans ?_)
    simp only [idle, Option.isSome_none, Bool.false_eq_true, if_false]
    rfl
  · exact congrArg Host.Outcome.next ((exposureSaveExpires_running running).trans (if_pos busy))

/-! ### The end of a save -/

/-- The answer to a save reads and changes LNK alone. -/
theorem saveAnswer_frame {s t : State} (agrees : Bool) (x : Save) (h : t.lnk = s.lnk) :
    saveAnswer agrees x t = t.withLnk (saveAnswer agrees x s).lnk := by
  unfold saveAnswer
  split
  · rw [← h]
    rfl
  · split <;> simp only [answerHeld, onLink, State.withLnk_lnk, h]

theorem saveAnswer_lnk_of_request {s : State} {l : Link} {q : InService} {x : Save} (asked : x.requester = some l)
    (held : (s.lnk.links.get l).inService = some q) (agrees : Bool) :
    (saveAnswer agrees x s).lnk = (replied (onLink s l fun y => { y with inService := none }) l q.tag q.command
      (if agrees then .ok else .storeFault) (if agrees then [] else enc8 x.capture.image)).lnk := by
  simp only [saveAnswer, asked, answerHeld, replied, onLink_onLink]
  cases agrees <;> cases l <;> simp only [onLink, LinkState.answer, held] <;> rfl

/-- What the end of a save leaves, block by block (R180, R181). -/
theorem saveEnds_eq {s : State} {x : Save} (flying : s.nvs.save = some x) (agrees : Bool) :
    saveEnds agrees s =
      { s with
        nvs :=
          { writeImage agrees x.capture s.nvs with
            save := if s.nvs.waiting then some { capture := .exposure (captureExposure s), requester := none } else none
            waiting := false }
        cfg := { s.cfg with unsavedEdits := unsavedAfter agrees x.capture s.cfg }
        evt := (appendEvent s (saveNote agrees x)).evt
        lnk := (saveAnswer agrees x s).lnk } := by
  have waiting : (writeImage agrees x.capture s.nvs).waiting = s.nvs.waiting := by
    unfold writeImage
    split <;> rfl
  simp only [saveEnds, flying, waiting]
  rw [saveAnswer_frame (s := s)]
  · cases s.nvs.waiting <;> rfl
  · rfl

/-- Settles O20: by the blocks that the end of a save leaves, and the image that it writes. -/
theorem saveEndSettlesImage : Obligations.SaveEndSettlesImage := by
  unfold Obligations.SaveEndSettlesImage
  intro s agrees x flying
  refine ⟨_, congrArg Host.Outcome.next (saveEnds_eq flying agrees), rfl, rfl, rfl, fun quiet => if_neg (by simp [quiet]),
    fun due => if_pos due, rfl, fun image captured => ?_, fun image captured => ?_, fun nobody => ?_,
    fun l q asked held => saveAnswer_lnk_of_request asked held agrees⟩
  · simp only [captured]
    refine ⟨rfl, rfl, rfl, rfl, ?_, ?_⟩ <;> rintro rfl
    · exact ⟨rfl, Bool.and_false _, by simp [unsavedAfter]⟩
    · exact ⟨rfl, Bool.and_true _, Bool.and_true _⟩
  · simp only [captured]
    refine ⟨rfl, rfl, rfl, rfl, rfl, ?_, ?_⟩ <;> rintro rfl
    · exact ⟨rfl, Bool.and_false _⟩
    · exact ⟨rfl, Bool.and_true _⟩
  · simp only [saveAnswer, nobody]

end Sys2Proof.Machine

/-! ## The health machine, and the judgement of an input -/

namespace Sys2Proof.Machine

/-! ### Parts of the health machine -/

section
variable {p : Parameters} {now step failTime : Nat} {c : Channel} {k : Candidate} {g : LastGood} {v : Int} {b : Bool}

theorem weigh_confirmed (h : p.confirmCount ≤ k.tally) : c.weigh p.confirmCount now k =
    ({ c.accept k.value now with stats := { c.stats with recovered := raise max16 c.stats.recovered } },
      [(.channelRecovered, 1)]) := if_pos h

theorem weigh_unconfirmed (h : k.tally < p.confirmCount) : c.weigh p.confirmCount now k =
    ({ c with state := .suspect, candidate := some k, lostRun := 0 }, []) := if_neg (Nat.not_le.2 h)

theorem weigh_suspect (suspect : c.state = .suspect) (h : k.tally < p.confirmCount) : c.weigh p.confirmCount now k =
    ({ c with candidate := some k, lostRun := 0 }, []) := by
  rw [weigh_unconfirmed h, ← suspect]

theorem closeTo_of_le (h : (v - g.value).natAbs ≤ step) : closeTo step v g.value = true := decide_eq_true h

theorem closeTo_of_lt {w : Int} (h : step < (v - w).natAbs) : closeTo step v w = false :=
  decide_eq_false (Nat.not_le.2 h)

theorem healthyReading_close (good : c.lastGood = some g) (h : (v - g.value).natAbs ≤ step) :
    c.healthyReading p now step v = (c.accept v now, []) := by
  simp only [Channel.healthyReading, good, closeTo_of_le h, if_true]

theorem healthyReading_far (good : c.lastGood = some g) (h : step < (v - g.value).natAbs) :
    c.healthyReading p now step v =
      let d := c.countStep.weigh p.confirmCount now { value := v, tally := 1, suspectAge := 0 }
      (d.1, (.channelSuspect, v) :: d.2) := by
  simp only [Channel.healthyReading, good, closeTo_of_lt h, Bool.false_eq_true, if_false]

theorem suspectReading_close (good : c.lastGood = some g) (h : (v - g.value).natAbs ≤ step) :
    c.suspectReading p now step v = (c.accept v now, [(.channelRecovered, 0)]) := by
  simp only [Channel.suspectReading, good, Option.any_some, closeTo_of_le h, if_true]

theorem suspectReading_again (good : c.lastGood = some g) (held : c.candidate = some k)
    (far : step < (v - g.value).natAbs) (again : (v - k.value).natAbs ≤ step) :
    c.suspectReading p now step v = c.weigh p.confirmCount now { k with value := v, tally := raise 15 k.tally } := by
  have close : closeTo step v k.value = true := decide_eq_true again
  simp only [Channel.suspectReading, good, held, Option.any_some, Option.getD_some, closeTo_of_lt far, close,
    Bool.false_eq_true, if_false, if_true]

theorem suspectReading_other (good : c.lastGood = some g) (held : c.candidate = some k)
    (far : step < (v - g.value).natAbs) (other : step < (v - k.value).natAbs) :
    c.suspectReading p now step v = c.countStep.weigh p.confirmCount now { k with value := v, tally := 1 } := by
  simp only [Channel.suspectReading, good, held, Option.any_some, Option.getD_some, closeTo_of_lt far, closeTo_of_lt other,
    Bool.false_eq_true, if_false]

/-- A channel that a sample leaves Suspect (R34). -/
theorem ageSuspect_suspect {events : List (EventKind × Int)} (suspect : c.state = .suspect) (held : c.candidate = some k) :
    ageSuspect failTime (c, events) =
      if failTime ≤ raise max8 k.suspectAge then
        ({ c with state := .failed, cause := some .unconfirmed, candidate := none }, events ++ [(.channelFailed, 2)])
      else ({ c with candidate := some { k with suspectAge := raise max8 k.suspectAge } }, events) := by
  simp only [ageSuspect, suspect, held]
  rfl

theorem ageSuspect_other {r : Sampled} (h : r.1.state ≠ .suspect) : ageSuspect failTime r = r := by
  unfold ageSuspect
  split
  · contradiction
  · rfl

end

/-- Settles O24: state by state and judgement by judgement. -/
theorem channelsFollowHealthRules : Obligations.ChannelsFollowHealthRules := by
  unfold Obligations.ChannelsFollowHealthRules
  intro p now step c next good failed stepped recovered lost empty
  refine ⟨fun acquiring => ?_, fun judged => ?_, fun healthy => ⟨?_, ?_, fun g v b hg => ⟨fun close => ?_,
    fun far more => ?_, fun far one => ?_⟩⟩, fun suspect g k hg hk => ?_, fun idle => ?_⟩
  · simp only [next, Channel.sample, acquiring]
    exact ⟨rfl, rfl, fun _ _ => rfl⟩
  · rcases judged with h | h | h <;> simp only [next, Channel.sample, h] <;> rfl
  · simp only [next, Channel.sample, healthy]
    rfl
  · simp only [next, Channel.sample, healthy]
    rfl
  · simp only [next, Channel.sample, healthy, healthyReading_close hg close]
    rfl
  · simp only [next, Channel.sample, healthy, healthyReading_far hg far]
    rw [weigh_unconfirmed (k := { value := v, tally := 1, suspectAge := 0 }) more]
    rfl
  · simp only [next, Channel.sample, healthy, healthyReading_far hg far]
    rw [weigh_confirmed (k := { value := v, tally := 1, suspectAge := 0 }) one.le]
    rfl
  · intro older stays
    have stay (d : Channel) (j : Candidate) (sus : d.state = .suspect) (age : j.suspectAge = k.suspectAge) :
        ageSuspect p.failTime ({ d with candidate := some j }, []) = stays d j.value j.tally := by
      rw [ageSuspect_suspect (c := { d with candidate := some j }) (k := j) sus rfl, age]
      rfl
    have reading (v : Int) (b : Bool) : next (.valid v b) = ageSuspect p.failTime (c.suspectReading p now step v) := by
      simp only [next, Channel.sample, suspect]
    have silent : ageSuspect p.failTime (c.loseSample, []) = stays lost k.value k.tally := by
      rw [← stay lost k suspect rfl, ← hk]
      rfl
    refine ⟨?_, ?_, fun v b => ⟨fun close => ?_, fun far again => ⟨fun few => ?_, fun enough => ?_⟩,
      fun far other => ⟨fun more => ?_, fun one => ?_⟩⟩⟩
    · simp only [next, Channel.sample, suspect, silent]
    · simp only [next, Channel.sample, suspect, silent]
    · rw [reading, suspectReading_close hg close]
      exact ageSuspect_other nofun
    · rw [reading, suspectReading_again hg hk far again, weigh_suspect suspect few]
      exact stay { c with lostRun := 0 } { k with value := v, tally := raise 15 k.tally } suspect rfl
    · rw [reading, suspectReading_again hg hk far again, weigh_confirmed enough]
      exact ageSuspect_other nofun
    · rw [reading, suspectReading_other hg hk far other, weigh_suspect (c := c.countStep) (k := { k with value := v, tally := 1 }) suspect more]
      exact stay { stepped c with lostRun := 0 } { k with value := v, tally := 1 } suspect rfl
    · rw [reading, suspectReading_other hg hk far other, weigh_confirmed (k := { k with value := v, tally := 1 }) one.le]
      exact ageSuspect_other nofun
  · rcases idle with h | h <;> simp only [next, Channel.sample, h] <;> exact ⟨trivial, rfl, rfl, fun _ _ => trivial⟩

/-! ### The judgement of an input -/

theorem clampMap_eq (v : Int) : clampMap v = if v < -500 then -500 else if 12500 < v then 12500 else v := by
  unfold clampMap clampInt mapLow mapHigh
  grind

/-- Settles O23: rounding to the nearest, the three ranges, and a counter for each judgement. -/
theorem correctedValuesRound : Obligations.CorrectedValuesRound := by
  unfold Obligations.CorrectedValuesRound
  intro cfg r x gain
  have gain_eq : gain = roundHalfAway x 1000000 := by
    show correctedRaw cfg r - r - cfg.offset = _
    have : r * trimPpm cfg.trim = x := rfl
    rw [correctedRaw, this]
    omega
  obtain ⟨near, tie⟩ := roundHalfAway_spec x (d := 1000000) (by decide)
  rw [← gain_eq] at near tie
  refine ⟨near, tie, rfl, fun out => if_pos out, fun low high => ?_, fun x c => ⟨rfl, rfl, rfl, rfl, rfl⟩⟩
  have inside : ¬(r < -2000 ∨ 16000 < r) := by omega
  have judged : judgeInput cfg r false = .valid (clampMap (correctedRaw cfg r))
    (decide (clampMap (correctedRaw cfg r) ≠ correctedRaw cfg r)) := if_neg inside
  rw [judged, clampMap_eq]
  refine ⟨fun above below => ?_, fun below => ?_, fun above => ?_⟩
  · rw [if_neg (by omega), if_neg (by omega)]
    simp
  · rw [if_pos below]
    simp only [Judgement.valid.injEq, decide_eq_true_eq, true_and]
    omega
  · rw [if_neg (by omega), if_pos above]
    simp only [Judgement.valid.injEq, decide_eq_true_eq, true_and]
    omega

end Sys2Proof.Machine

/-! ## Polls -/

namespace Sys2Proof.Machine

/-! ### The round -/

theorem slotEnabled_congr {s t : State} {k : Nat}
    (h : ∀ i, i < slotInputs → (t.channel (k * slotInputs + i)).state = (s.channel (k * slotInputs + i)).state) :
    slotEnabled t k = slotEnabled s k := by
  unfold slotEnabled
  rw [Bool.eq_iff_iff, List.any_eq_true, List.any_eq_true]
  refine exists_congr fun i => and_congr_right fun hi => ?_
  rw [h i (List.mem_range.1 hi)]

/-- The round goes on with the first enabled slot (R21). -/
theorem pollsFrom_pollFrom {s t : State} {first : Nat} (h : ∀ k, first ≤ k → slotEnabled t k = slotEnabled s k) :
    PollsFrom s (pollFrom t first) first := by
  show ((nextEnabledSlot t first).map _ = none → _) ∧ ∀ p, (nextEnabledSlot t first).map _ = some p → _
  unfold nextEnabledSlot
  refine ⟨fun none k low high => ?_, fun p some => ?_⟩
  · have skipped := List.find?_range'_eq_none.1 (Option.map_eq_none_iff.1 none) k low (by unfold slotCount; omega)
    rw [h k low] at skipped
    simpa using skipped
  · obtain ⟨k, found, rfl⟩ := Option.map_eq_some_iff.1 some
    obtain ⟨enabled, inside, before⟩ := List.find?_range'_eq_some.1 found
    obtain ⟨low, high⟩ := List.mem_range'_1.1 inside
    have below : k < 12 := by
      unfold slotCount at high
      omega
    refine ⟨rfl, low, below, by rw [← h k low]; exact enabled, fun j lj jk => ?_⟩
    rw [← h j lj]
    simpa using before j lj jk

/-! ### A sample expiry -/

/-- `s` with its sample counter reloaded and its channels aged (R21). -/
def sampleAged (s : State) : State :=
  (s.withTmb { s.tmb with sampleCounter := s.cfg.parameters.samplePeriod }).withAcq
    { s.acq with channels := Table.mapEntries (fun _ c => c.grow) s.acq.channels }

theorem channel_sampleAged (s : State) (n : Nat) : (sampleAged s).channel n = (s.channel n).grow := by
  simp only [State.channel, sampleAged, State.withAcq_acq, Table.get, Table.find_mapEntries]
  cases Table.find s.acq.channels n <;> rfl

/-- A sample expiry with a round in progress, and with none (R21, R22). -/
theorem sampleExpires_eq (s : State) :
    sampleExpires s = if s.acq.poll.isSome then sampleAged s else pollFrom (sampleAged s) 0 := rfl

/-- Settles O21: ages do not touch a state, so the round starts from the slots enabled before. -/
theorem sampleExpiryAgesAndPolls : Obligations.SampleExpiryAgesAndPolls := by
  unfold Obligations.SampleExpiryAgesAndPolls
  intro s
  refine ⟨_, congrArg Host.Outcome.next (sampleExpires_eq s), ?_⟩
  cases polling : s.acq.poll with
  | some p => exact ⟨rfl, rfl, channel_sampleAged s, fun _ => polling, nofun⟩
  | none =>
    refine ⟨rfl, rfl, channel_sampleAged s, nofun, fun _ => pollsFrom_pollFrom fun k _ => ?_⟩
    exact slotEnabled_congr fun i _ => (congrArg Channel.state (channel_sampleAged s _)).trans rfl

end Sys2Proof.Machine

/-! ## The ends of polls -/

namespace Sys2Proof.Machine

/-! ### One input -/

/-- A sample keeps a channel's configuration (R31 to R35). -/
theorem Channel.sample_config (p : Parameters) (uptime maxStep : Nat) (j : Judgement) (c : Channel) :
    (c.sample p uptime maxStep j).1.config = c.config := by
  by_cases used : c.state = .unused
  · rw [Channel.sample]
    simp only [used]
  · exact (staysUsed_sample p uptime maxStep j c used).2

theorem Channel.ne_unused_of_config {c : Channel} {cfg : ChannelConfig} (h : c.config = some cfg) : c ≠ .unused := by
  rintro rfl
  cases h

theorem channel_setChannel_of_config {s : State} {c : Channel} {cfg : ChannelConfig} (h : c.config = some cfg) (n m : Nat) :
    (s.setChannel n c).channel m = if m = n then c else s.channel m :=
  Table.get_put_of_ne Channel.unused s.acq.channels n (Channel.ne_unused_of_config h) m

/-- How a poll that brought `reply` judges each input (R26, R27). -/
def inputJudge (reply : Option ModuleReply) (i : Nat) (cfg : ChannelConfig) : Judgement :=
  match reply with
  | none => .lost
  | some r => judgeInput cfg (r.readings.getD i 0) (r.opens.getLsbD i)

/-- The events of the sample of channel `n` (R26). -/
def sampleNotes (s : State) (n : Nat) (judge : ChannelConfig → Judgement) : List Note :=
  (sampledChannel s n judge).2.map fun x => { kind := x.1, subject := n, detail := x.2 }

theorem sampledChannel_congr {s t : State} {n : Nat} (channel : t.channel n = s.channel n) (cfg : t.cfg = s.cfg)
    (tmb : t.tmb = s.tmb) (judge : ChannelConfig → Judgement) : sampledChannel t n judge = sampledChannel s n judge := by
  rw [sampledChannel, sampledChannel, channel, cfg, tmb]

theorem updateInput_of_none {slot i : Nat} {s : State} {reply : Option ModuleReply}
    (h : (s.channel (slot * 8 + i)).config = none) : updateInput slot reply s i = s := by
  have h : (s.channel (slot * slotInputs + i)).config = none := h
  simp only [updateInput, h]

theorem updateInput_of_some {slot i : Nat} {s : State} {reply : Option ModuleReply} {cfg : ChannelConfig}
    (h : (s.channel (slot * 8 + i)).config = some cfg) : updateInput slot reply s i =
      appendEvents (s.setChannel (slot * 8 + i) (sampledChannel s (slot * 8 + i) (inputJudge reply i)).1)
        (sampleNotes s (slot * 8 + i) (inputJudge reply i)) := by
  have h' : (s.channel (slot * slotInputs + i)).config = some cfg := h
  simp only [updateInput, h', sampleNotes, sampledChannel, h]
  cases reply <;> rfl

theorem sampledChannel_of_none {s : State} {n : Nat} (h : (s.channel n).config = none) (judge : ChannelConfig → Judgement) :
    sampledChannel s n judge = (s.channel n, []) := by
  simp only [sampledChannel, h]

theorem sampledChannel_config (s : State) (n : Nat) (judge : ChannelConfig → Judgement) :
    (sampledChannel s n judge).1.config = (s.channel n).config := by
  cases h : (s.channel n).config with
  | none => rw [sampledChannel_of_none h, h]
  | some cfg =>
    simp only [sampledChannel, h]
    exact Channel.sample_config ..

/-- What the update of one input leaves (R26, R27). -/
theorem updateInput_spec (slot : Nat) (reply : Option ModuleReply) (s : State) (i : Nat) :
    let t := updateInput slot reply s i
    let sampled := sampledChannel s (slot * 8 + i) (inputJudge reply i)
    t = { s with acq := t.acq, evt := t.evt } ∧ t.acq.slots = s.acq.slots ∧
      (∀ n, t.channel n = if n = slot * 8 + i then sampled.1 else s.channel n) ∧
      t.evt = (appendEvents s (sampleNotes s (slot * 8 + i) (inputJudge reply i))).evt := by
  intro t sampled
  cases h : (s.channel (slot * 8 + i)).config with
  | none =>
    have same : t = s := updateInput_of_none h
    have idle : sampled = (s.channel (slot * 8 + i), []) := sampledChannel_of_none h _
    refine ⟨by rw [same], by rw [same], fun n => ?_, ?_⟩
    · rw [same, idle]
      split
      case isTrue at_n => rw [at_n]
      case isFalse => rfl
    · rw [same, sampleNotes, show (sampledChannel s _ _).2 = [] from congrArg Prod.snd idle]
      rfl
  | some cfg =>
    have updated : t = _ := updateInput_of_some h
    have configured : sampled.1.config = some cfg := (sampledChannel_config ..).trans h
    rw [updated, appendEvents_frame]
    exact ⟨rfl, rfl, fun n => channel_setChannel_of_config configured _ n, appendEvents_evt_congr _ rfl rfl⟩

/-! ### The eight inputs of a slot -/

/-- `t` is `s` after the inputs of `done` of a slot were updated by `judge`, in this order (R26). -/
structure InputsSampled (s t : State) (slot : Nat) (judge : Nat → ChannelConfig → Judgement) (done : List Nat) : Prop where
  frame : t = { s with acq := t.acq, evt := t.evt }
  slots : t.acq.slots = s.acq.slots
  sampled : ∀ i ∈ done, t.channel (slot * 8 + i) = (sampledChannel s (slot * 8 + i) (judge i)).1
  others : ∀ n, (∀ i ∈ done, n ≠ slot * 8 + i) → t.channel n = s.channel n
  events : t.evt = (appendEvents s (done.flatMap fun i => sampleNotes s (slot * 8 + i) (judge i))).evt

theorem InputsSampled.next {s t : State} {slot : Nat} {reply : Option ModuleReply} {done : List Nat}
    (h : InputsSampled s t slot (inputJudge reply) done) {i : Nat} (new : i ∉ done) :
    InputsSampled s (updateInput slot reply t i) slot (inputJudge reply) (done ++ [i]) := by
  obtain ⟨frame, slots, channels, events⟩ := updateInput_spec slot reply t i
  have fresh : t.channel (slot * 8 + i) = s.channel (slot * 8 + i) :=
    h.others _ fun j hj same => new (by rwa [show i = j by omega])
  have cfg : t.cfg = s.cfg := by rw [h.frame]
  have tmb : t.tmb = s.tmb := by rw [h.frame]
  have sample : sampledChannel t (slot * 8 + i) (inputJudge reply i) = sampledChannel s (slot * 8 + i) (inputJudge reply i) :=
    sampledChannel_congr fresh cfg tmb _
  refine ⟨by rw [frame, h.frame], slots.trans h.slots, fun j hj => ?_, fun n hn => ?_, ?_⟩
  · rw [channels]
    split
    case isTrue same =>
      obtain rfl : j = i := by omega
      rw [sample]
    case isFalse other =>
      refine h.sampled j ((List.mem_append.1 hj).resolve_right fun last => other ?_)
      rw [List.mem_singleton.1 last]
  · rw [channels, if_neg (hn i (by simp))]
    exact h.others n fun j hj => hn j (by simp [hj])
  · rw [events, List.flatMap_append, List.flatMap_singleton, appendEvents_append]
    unfold sampleNotes
    rw [sample]
    exact appendEvents_evt_congr _ h.events (tmb.trans (appendEvents_tmb ..).symm)

theorem inputsSampled_foldl (slot : Nat) (reply : Option ModuleReply) (s : State) (n : Nat) :
    InputsSampled s ((List.range n).foldl (updateInput slot reply) s) slot (inputJudge reply) (List.range n) := by
  induction n with
  | zero => exact ⟨rfl, rfl, nofun, fun _ _ => rfl, rfl⟩
  | succ n ih =>
    rw [List.range_succ, List.foldl_append]
    exact ih.next (by simp)

/-! ### The slot -/

theorem slot_setSlot {s : State} {x : SlotStatus} (h : x ≠ .reset) (n k : Nat) :
    (s.setSlot n x).slot k = if k = n then x else s.slot k := Table.get_put_of_ne SlotStatus.reset s.acq.slots n h k

/-- The event of a slot that goes missing (R25). -/
def missingNotes (s : State) (slot : Nat) (status : SlotStatus) : List Note :=
  if status.missing && !(s.slot slot).missing then [{ kind := .moduleMissing, subject := slot * 8, detail := slot }] else []

theorem updateSlot_eq (slot : Nat) (outcome : PollOutcome) (drew : Bool) (reply : Option ModuleReply) (s : State) :
    let status : SlotStatus :=
      { missing := !drew, fault := (reply.map ModuleReply.fault).getD (s.slot slot).fault, lastOutcome := outcome }
    updateSlot slot outcome drew reply s = appendEvents (s.setSlot slot status) (missingNotes s slot status) := by
  intro status
  have written : updateSlot slot outcome drew reply s
      = if !drew && !(s.slot slot).missing then
          appendEvent (s.setSlot slot status) { kind := .moduleMissing, subject := slot * slotInputs, detail := slot }
        else s.setSlot slot status := by
    cases reply <;> rfl
  rw [written, missingNotes]
  split <;> rfl

/-- The end of a poll whose readings, if any, are those of `reply` (R24 to R26). -/
theorem pollEnds_endPoll {s : State} {slot : Nat} {outcome : PollOutcome} {drew : Bool} {reply : Option ModuleReply}
    {status : SlotStatus} {judge : Nat → ChannelConfig → Judgement} (ended : outcome ≠ .none)
    (hs : status =
      { missing := !drew, fault := (reply.map ModuleReply.fault).getD (s.slot slot).fault, lastOutcome := outcome })
    (hj : judge = inputJudge (if outcome = .good ∨ outcome = .goodAfterReread then reply else none)) :
    PollEnds s (endPoll slot outcome drew reply s) slot status judge := by
  subst hj
  generalize hr : (if outcome = .good ∨ outcome = .goodAfterReread then reply else none) = readings
  have written : updateSlot slot outcome drew reply s = appendEvents (s.setSlot slot status) (missingNotes s slot status) := by
    rw [updateSlot_eq, hs]
  have fresh : status ≠ .reset := by
    rintro rfl
    exact ended (congrArg SlotStatus.lastOutcome hs).symm
  have walk : endPoll slot outcome drew reply s = pollFrom ((List.range slotInputs).foldl (updateInput slot readings)
      (updateSlot slot outcome drew reply s)) (slot + 1) := by
    rw [← hr]
    rfl
  generalize updateSlot slot outcome drew reply s = u at written walk
  obtain ⟨frame, slots, sampled, others, events⟩ := inputsSampled_foldl slot readings u slotInputs
  generalize (List.range slotInputs).foldl (updateInput slot readings) u = t at *
  have acq : u.acq = (s.setSlot slot status).acq := by rw [written, appendEvents_acq]
  have channel (n : Nat) : u.channel n = s.channel n := by rw [State.channel, acq]; rfl
  have cfg : u.cfg = s.cfg := by rw [written, appendEvents_cfg]; rfl
  have tmb : u.tmb = s.tmb := by rw [written, appendEvents_tmb]; rfl
  have sample (n : Nat) (judge : ChannelConfig → Judgement) : sampledChannel u n judge = sampledChannel s n judge :=
    sampledChannel_congr (channel n) cfg tmb judge
  have slotOthers {n : Nat} (h : n / 8 ≠ slot) : t.channel n = s.channel n := by
    rw [others n fun i hi same => h ?_, channel]
    have := List.mem_range.1 hi
    unfold slotInputs at this
    omega
  rw [walk]
  refine ⟨?_, fun k => ?_, fun n hn => slotOthers hn, fun i hi => ?_, ?_, pollsFrom_pollFrom fun k hk => ?_⟩
  · rw [frame, written, appendEvents_frame]
    rfl
  · show Table.get _ t.acq.slots k = _
    rw [slots, acq]
    exact slot_setSlot fresh slot k
  · exact (sampled i (List.mem_range.2 hi)).trans (congrArg Prod.fst (sample ..))
  · show t.evt = _
    rw [events, appendEvents_append]
    simp only [sampleNotes, sample]
    refine appendEvents_evt_congr _ ?_ (tmb.trans (appendEvents_tmb ..).symm)
    rw [written]
    exact appendEvents_evt_congr _ rfl rfl
  · refine slotEnabled_congr fun i hi => congrArg Channel.state (slotOthers ?_)
    unfold slotInputs at hi ⊢
    omega

/-! ### Replies, bad frames and silence -/

theorem badFrame_first {p : Poll} (first : p.reread = false) (s : State) :
    badFrame p s = s.withAcq { s.acq with poll := some { slot := p.slot, reread := true } } := by
  rw [badFrame, if_neg (by simp [first])]

theorem badFrame_second {p : Poll} (second : p.reread = true) (s : State) :
    badFrame p s = endPoll p.slot .badFrame true none s := if_pos second

/-- Both rows that end in a bad frame (R24). -/
theorem exec_badFrame {s : State} {p : Poll} (polling : s.acq.poll = some p) {i : Instr}
    (h : i = .replyTimeExpiry true ∨ ∃ bytes, i = .moduleReply bytes ∧ wellFormedReply p.slot bytes = none) :
    exec i s = .next (badFrame p s) := by
  rcases h with rfl | ⟨bytes, rfl, bad⟩
  · show Host.Outcome.next (replyTimeEnds true s) = _
    simp only [replyTimeEnds, polling, if_true]
  · show Host.Outcome.next (receiveReply bytes s) = _
    simp only [receiveReply, polling, bad]

/-- Settles O22: each way a poll ends is one end with its status and its judgement. -/
theorem pollRepliesEndPolls : Obligations.PollRepliesEndPolls := by
  unfold Obligations.PollRepliesEndPolls
  intro s
  refine ⟨fun idle bytes came => ⟨?_, ?_⟩, fun p polling => ?_⟩
  · show Host.Outcome.next (receiveReply bytes s) = _
    simp only [receiveReply, idle]
  · show Host.Outcome.next (replyTimeEnds came s) = _
    simp only [replyTimeEnds, idle]
  intro badFrames
  refine ⟨fun bytes r well => ?_, fun i bad first => ?_, fun i bad second => ?_, ?_⟩
  · refine ⟨endPoll p.slot (replyOutcome p.reread r) true (some r) s, ?_, pollEnds_endPoll ?_ rfl ?_⟩
    · show Host.Outcome.next (receiveReply bytes s) = _
      simp only [receiveReply, polling, well]
    · unfold replyOutcome
      split
      · nofun
      · split <;> nofun
    · funext i cfg
      unfold replyOutcome
      cases r.fault <;> cases p.reread <;> rfl
  · rw [exec_badFrame polling bad, badFrame_first first]
  · rw [exec_badFrame polling bad, badFrame_second second]
    exact ⟨_, rfl, pollEnds_endPoll nofun rfl rfl⟩
  · refine ⟨endPoll p.slot .noReply false none s, ?_, pollEnds_endPoll nofun rfl rfl⟩
    show Host.Outcome.next (replyTimeEnds false s) = _
    simp only [replyTimeEnds, polling, Bool.false_eq_true, if_false]

end Sys2Proof.Machine

/-! ## Channel edits -/

namespace Sys2Proof.Machine

/-! ### Checks in their order -/

@[simp] theorem firstRefusal_nil : firstRefusal [] = none := rfl

theorem firstRefusal_of_true {b : Bool} (h : b = true) (r : Result) (rest : List (Bool × Result)) :
    firstRefusal ((b, r) :: rest) = some r := by
  subst h
  rfl

theorem firstRefusal_of_false {b : Bool} (h : b = false) (r : Result) (rest : List (Bool × Result)) :
    firstRefusal ((b, r) :: rest) = firstRefusal rest := by
  subst h
  rfl

section
variable {s : State} {channel : Nat} {form : DefineChannelForm}

theorem isPrimary_iff : isPrimary s channel = true ↔ ∃ x ∈ s.cfg.primaries, x.2 = channel := by
  simp only [isPrimary, List.any_eq_true, decide_eq_true_eq]

theorem isAlternate_iff : isAlternate s channel = true ↔ ∃ x ∈ s.cfg.alternates, x.2.channel = channel := by
  simp only [isAlternate, List.any_eq_true, decide_eq_true_eq]

theorem below_channelCount (h : channel < 96) : decide (channelCount ≤ channel) = false := decide_eq_false (Nat.not_le.2 h)

theorem defineChannelRefusal_above (h : 96 ≤ channel) : defineChannelRefusal channel form s = some .badArgument :=
  firstRefusal_of_true (decide_eq_true h) _ _

theorem defineChannelRefusal_configuration (h : channel < 96) (offset trim : Int) (maxStep : Nat) :
    defineChannelRefusal channel (.configuration offset trim maxStep) s = none := by
  rw [defineChannelRefusal, firstRefusal_of_false (below_channelCount h)]
  simp [firstRefusal]

theorem defineChannelRefusal_remove (h : channel < 96) : defineChannelRefusal channel .remove s =
    if (s.channel channel).state = .unused then some .notConfigured
    else if isPrimary s channel || isAlternate s channel then some .badArgument else none := by
  rw [defineChannelRefusal, firstRefusal_of_false (below_channelCount h)]
  by_cases unused : (s.channel channel).state = .unused
  · rw [firstRefusal_of_true (by simp [unused]), if_pos unused]
  · rw [firstRefusal_of_false (by simp [unused]), if_neg unused]
    cases assigned : isPrimary s channel || isAlternate s channel <;> simp [firstRefusal]

theorem clampInt_eq_max_min {lo hi : Int} (h : lo ≤ hi) (v : Int) : clampInt lo hi v = max lo (min hi v) := by
  unfold clampInt
  omega

theorem clampNat_eq_max_min {lo hi : Nat} (h : lo ≤ hi) (v : Nat) : clampNat lo hi v = max lo (min hi v) := by
  unfold clampNat
  grind

theorem clampChannelConfig_eq (offset trim : Int) (maxStep : Nat) : clampChannelConfig offset trim maxStep =
    { offset := max (-500) (min 500 offset), trim := max (-31) (min 31 trim), maxStep := max 1 (min 500 maxStep) } := by
  rw [clampChannelConfig, clampInt_eq_max_min (by decide), clampInt_eq_max_min (by decide), clampNat_eq_max_min (by decide)]

theorem ChannelConfig.eq_iff {x : ChannelConfig} {offset trim : Int} {maxStep : Nat} :
    x = { offset := offset, trim := trim, maxStep := maxStep } ↔ x.offset = offset ∧ x.trim = trim ∧ x.maxStep = maxStep := by
  cases x
  simp

theorem configure_eq (cfg : ChannelConfig) (c : Channel) : c.configure cfg =
    if c.state = .failed ∨ c.state = .retired then { c with config := some cfg }
    else { c with
      state := .acquiring, cause := none, lastGood := none, candidate := none, lostRun := 0, config := some cfg } := by
  unfold Channel.configure
  cases h : c.state <;> simp

end

/-- Settles O25: the checks of each edit in their order, and its change when all pass. -/
theorem channelEditsApply : Obligations.ChannelEditsApply := by
  unfold Obligations.ChannelEditsApply
  intro s l tag channel ready c g refused fresh slotReady
  refine ⟨fun above => ⟨fun form => ?_, ?_, ?_⟩, fun below unused => ⟨?_, ?_, ?_⟩, fun below offset trim maxStep => ?_,
    fun below used => ⟨fun assigned => ?_, fun primary alternate => ?_, ?_⟩, fun below serving => ?_, fun below out => ?_⟩
  · exact congrArg Host.Outcome.next (serve_edit_refused ready rfl (by decide) (defineChannelRefusal_above above))
  · exact congrArg Host.Outcome.next (serve_edit_refused ready rfl (by decide)
      (firstRefusal_of_true (decide_eq_true above) _ _))
  · exact congrArg Host.Outcome.next (serve_edit_refused ready rfl (by decide)
      (firstRefusal_of_true (decide_eq_true above) _ _))
  · exact congrArg Host.Outcome.next (serve_edit_refused ready rfl (by decide)
      ((defineChannelRefusal_remove below).trans (if_pos unused)))
  · refine congrArg Host.Outcome.next (serve_edit_refused ready rfl (by decide) ?_)
    rw [firstRefusal_of_false (below_channelCount below), firstRefusal_of_true (decide_eq_true unused)]
  · refine congrArg Host.Outcome.next (serve_edit_refused ready rfl (by decide) ?_)
    rw [firstRefusal_of_false (below_channelCount below), firstRefusal_of_true (decide_eq_true unused)]
  · intro cfg
    refine congrArg Host.Outcome.next ((serve_edit_taken ready rfl (by decide)
      (defineChannelRefusal_configuration below offset trim maxStep)).trans ?_)
    have same : clampChannelConfig offset trim maxStep = cfg := clampChannelConfig_eq ..
    have answer : clampedIf (defineChannelClamped (.configuration offset trim maxStep))
        = if cfg.offset = offset ∧ cfg.trim = trim ∧ cfg.maxStep = maxStep then .ok else .clamped := by
      rw [defineChannelClamped, same, clampedIf]
      by_cases kept : cfg = { offset := offset, trim := trim, maxStep := maxStep }
      · rw [if_pos (ChannelConfig.eq_iff.1 kept), if_neg (by simpa using kept)]
      · rw [if_neg (mt ChannelConfig.eq_iff.2 kept), if_pos (decide_eq_true kept)]
    rw [answer, applyDefineChannel, same, configure_eq]
    rfl
  · refine congrArg Host.Outcome.next (serve_edit_refused ready rfl (by decide)
      ((defineChannelRefusal_remove below).trans ?_))
    rw [if_neg used, if_pos]
    rw [Bool.or_eq_true, isPrimary_iff, isAlternate_iff]
    exact assigned
  · refine congrArg Host.Outcome.next (serve_edit_taken ready rfl (by decide)
      ((defineChannelRefusal_remove below).trans ?_))
    rw [if_neg used, if_neg]
    rw [Bool.or_eq_true, isPrimary_iff, isAlternate_iff]
    rintro (⟨x, hx, same⟩ | ⟨x, hx, same⟩)
    · exact primary x hx same
    · exact alternate x hx same
  · refine congrArg Host.Outcome.next (serve_edit_taken ready rfl (by decide) ?_)
    rw [firstRefusal_of_false (below_channelCount below), firstRefusal_of_false (decide_eq_false used), firstRefusal_nil]
  · refine congrArg Host.Outcome.next (serve_edit_refused ready rfl (by decide) ?_)
    have used : (s.channel channel).state ≠ .unused := by
      rcases serving with h | h | h <;> exact h ▸ nofun
    rw [firstRefusal_of_false (below_channelCount below), firstRefusal_of_false (decide_eq_false used),
      firstRefusal_of_true (decide_eq_true serving)]
  · refine congrArg Host.Outcome.next (serve_edit_taken ready rfl (by decide) ?_)
    have used : (s.channel channel).state ≠ .unused := by
      rcases out with h | h <;> exact h ▸ nofun
    have idle : ¬((s.channel channel).state = .acquiring ∨ (s.channel channel).state = .healthy ∨
        (s.channel channel).state = .suspect) := by
      rcases out with h | h <;> rw [show (s.channel channel).state = _ from h] <;> decide
    rw [firstRefusal_of_false (below_channelCount below), firstRefusal_of_false (decide_eq_false used),
      firstRefusal_of_false (decide_eq_false idle), firstRefusal_nil]

end Sys2Proof.Machine

/-! ## Sweeps -/

namespace Sys2Proof.Machine

/-! ### The steps of a sweep -/

/-- Settles O26: multiplication by a factor prime to the Sight Count permutes the residues. -/
theorem interleaveVisitsEverySight : Obligations.InterleaveVisitsEverySight := by
  unfold Obligations.InterleaveVisitsEverySight
  intro x valid sight below
  obtain ⟨-, -, prime⟩ := of_decide_eq_true valid
  have once {n m : Nat} (hn : n < x.sightCount) (hm : m < x.sightCount) (same : stepSight x n = stepSight x m) : n = m := by
    have cancelled : n ≡ m [MOD x.sightCount] :=
      Nat.ModEq.cancel_right_of_coprime (by rwa [Nat.gcd_comm]) same
    rwa [Nat.ModEq, Nat.mod_eq_of_lt hn, Nat.mod_eq_of_lt hm] at cancelled
  let aimed (n : Fin x.sightCount) : Fin x.sightCount := ⟨stepSight x n, Nat.mod_lt _ (by omega)⟩
  have injective : Function.Injective aimed := fun n m same => Fin.ext (once n.2 m.2 (congrArg Fin.val same))
  obtain ⟨n, hn⟩ := Finite.injective_iff_surjective.1 injective ⟨sight, below⟩
  have aimed_n : stepSight x n = sight := congrArg Fin.val hn
  exact ⟨n, n.2, aimed_n, fun m hm same => once hm n.2 (same.trans aimed_n.symm)⟩

theorem stepViewed_iff {s : State} {k : SweepKind} {n : Nat} : stepViewed s k n = true ↔
    k = .full ∨ ∃ j cell, k = .coil j ∧
      Table.find s.scn.sights ((n * s.scn.interleave) % s.scn.sightCount) = some cell ∧ s.coilOfCell cell = some j := by
  cases k with
  | full => simp [stepViewed]
  | coil j =>
    simp only [stepViewed, sightCell, stepSight]
    cases Table.find s.scn.sights ((n * s.scn.interleave) % s.scn.sightCount) <;> simp

theorem nextViewed_eq_some {s : State} {k : SweepKind} {first n : Nat} (low : first ≤ n) (high : n < s.scn.sightCount)
    (viewed : stepViewed s k n = true) (skipped : ∀ m, first ≤ m → m < n → ¬stepViewed s k m = true) :
    nextViewed s k first = some n := by
  refine List.find?_range'_eq_some.2 ⟨viewed, List.mem_range'_1.2 (by omega), fun m hm below => ?_⟩
  simpa using skipped m hm below

theorem nextViewed_eq_none {s : State} {k : SweepKind} {first : Nat}
    (spent : ∀ m, first ≤ m → m < s.scn.sightCount → ¬stepViewed s k m = true) : nextViewed s k first = none := by
  refine List.find?_range'_eq_none.2 fun m low high => ?_
  simpa using spent m low (by omega)

/-! ### The end of a sweep -/

theorem endSweep_of_none {s : State} (h : s.scn.pendingSlot = none) (x : Sweep) (outcome : SweepOutcome) :
    endSweep x outcome s = closeSweep x outcome s := by
  have kept : (closeSweep x outcome s).scn.pendingSlot = none := h
  simp only [endSweep, kept]

theorem endSweep_of_some {s : State} {k : SweepKind} (h : s.scn.pendingSlot = some k) (x : Sweep)
    (outcome : SweepOutcome) : endSweep x outcome s = startSweep k
      ((closeSweep x outcome s).withScn { (closeSweep x outcome s).scn with pendingSlot := none }) := by
  have kept : (closeSweep x outcome s).scn.pendingSlot = some k := h
  simp only [endSweep, kept]

theorem sweepNote_eq (x : Sweep) (outcome : SweepOutcome) : sweepNote x outcome =
    { kind := if outcome = .faulted then .sweepFaulted else .sweepDone
      subject := match x.kind with
        | .full => 255
        | .coil k => k
      detail := match outcome, x.lastFault with
        | .complete, _ => 0
        | .part, _ => 1
        | .cancelled, _ => 2
        | .faulted, some code => code
        | .faulted, none => -1 } := by
  obtain ⟨kind, nextStep, attempt, taken, discarded, missed, missedRun, lastFault, timeout⟩ := x
  cases outcome <;> cases lastFault <;> rfl

/-- Settles O28: the next viewed step is the first of the steps left that is viewed. -/
theorem sweepsAdvanceAndEnd : Obligations.SweepsAdvanceAndEnd := by
  unfold Obligations.SweepsAdvanceAndEnd
  intro s x kind viewed next spent fresh viewing closed
  have found {k : SweepKind} {first n : Nat} (h : next k first n) : nextViewed s k first = some n := by
    obtain ⟨low, high, seen, skipped⟩ := h
    exact nextViewed_eq_some low high (stepViewed_iff.2 seen) fun m hm below => mt stepViewed_iff.1 (skipped m hm below)
  have walked {k : SweepKind} {first : Nat} (h : spent k first) : nextViewed s k first = none :=
    nextViewed_eq_none fun m low high => mt stepViewed_iff.1 (h m low high)
  have close (y : Sweep) (outcome : SweepOutcome) : closeSweep y outcome s = closed y outcome :=
    congrArg (appendEvent _) (sweepNote_eq y outcome)
  refine ⟨fun n h => ?_, fun h => ?_, fun n h => ?_, fun h => ?_, fun outcome h => ?_, fun outcome k _ h => ?_⟩
  · simp only [startSweep, found h]
    rfl
  · simp only [startSweep, walked h, close]
    rfl
  · simp only [advanceSweep, found h]
    rfl
  · simp only [advanceSweep, walked h]
    rfl
  · rw [endSweep_of_none h, close]
  · rw [endSweep_of_some h, close]

/-! ### Readings and failed attempts -/

theorem exec_reading (intact : Bool) (sight : Nat) (temperature : Int) (signal : Nat) (s : State) :
    exec (.reading intact sight temperature signal) s = .next (readingArrives intact sight temperature signal s) := rfl

theorem exec_headFault (intact : Bool) (code : Nat) (s : State) :
    exec (.headFault intact code) s = .next (headFaultArrives intact code s) := rfl

section
variable {s : State} {x : Sweep} {sight : Nat} {temperature : Int} {signal : Nat}

theorem readingArrives_echo (sweeping : s.scn.sweep = some x) (echo : sight = stepSight s.scn x.nextStep) :
    readingArrives true sight temperature signal s = goodReading x sight temperature signal s := by
  simp only [readingArrives, sweeping, Bool.not_true, Bool.false_eq_true, if_false, if_pos echo]

theorem readingArrives_mismatch (sweeping : s.scn.sweep = some x) (other : sight ≠ stepSight s.scn x.nextStep) :
    readingArrives true sight temperature signal s = attemptFails x s := by
  simp only [readingArrives, sweeping, Bool.not_true, Bool.false_eq_true, if_false, if_neg other]

theorem goodReading_unnamed (unnamed : Table.find s.scn.sights sight = none) : goodReading x sight temperature signal s
    = advanceSweep { x with taken := x.taken + 1, missedRun := 0 } s := by
  simp only [goodReading, sightCell, unnamed]

theorem goodReading_weak {cell : Nat} (named : Table.find s.scn.sights sight = some cell)
    (weak : signal < s.cfg.parameters.minSignal) : goodReading x sight temperature signal s
      = advanceSweep { x with taken := x.taken + 1, missedRun := 0, discarded := x.discarded + 1 } s := by
  simp only [goodReading, sightCell, named, if_pos weak]

theorem goodReading_strong {cell : Nat} (named : Table.find s.scn.sights sight = some cell)
    (strong : s.cfg.parameters.minSignal ≤ signal) : goodReading x sight temperature signal s
      = advanceSweep { x with taken := x.taken + 1, missedRun := 0 } (acceptReading cell sight temperature signal s) := by
  simp only [goodReading, sightCell, named, if_neg (Nat.not_lt.2 strong)]

/-- `s` with the scan record of a Reading for `cell` stored (R53). -/
def scanStored (cell sight : Nat) (temperature : Int) (signal : Nat) (s : State) : State :=
  s.withScn
    { s.scn with
      scans := Table.insert s.scn.scans cell
        { sight := sight, temperature := temperature, signal := signal, stamp := s.tmb.uptime } }

theorem acceptReading_unusable {cell : Nat} (none : primaryValue s cell = none) :
    acceptReading cell sight temperature signal s = scanStored cell sight temperature signal s := by
  have kept : primaryValue (scanStored cell sight temperature signal s) cell = .none := none
  unfold acceptReading
  dsimp only
  split
  case h_1 usable => exact nomatch kept.symm.trans usable
  case h_2 => rfl

theorem acceptReading_usable {cell k : Nat} {c : Int} (inside : s.coilOfCell cell = some k)
    (usable : primaryValue s cell = some c) : acceptReading cell sight temperature signal s
      = compareBias k cell sight c temperature (scanStored cell sight temperature signal s) := by
  have inside : (scanStored cell sight temperature signal s).coilOfCell cell = some k := inside
  have usable : primaryValue (scanStored cell sight temperature signal s) cell = some c := usable
  show (match (scanStored cell sight temperature signal s).coilOfCell cell,
    primaryValue (scanStored cell sight temperature signal s) cell with
    | some k, some c => compareBias k cell sight c temperature (scanStored cell sight temperature signal s)
    | _, _ => scanStored cell sight temperature signal s) = _
  rw [inside, usable]

end

/-- Settles O29: by the sight, the signal and the primary, in the order of the model's cases. -/
theorem readingsTaken : Obligations.ReadingsTaken := by
  unfold Obligations.ReadingsTaken
  intro s x sight temperature signal sweeping echo y outcome
  have good : outcome = .next (goodReading x sight temperature signal s) :=
    congrArg Host.Outcome.next (readingArrives_echo sweeping echo)
  rw [good]
  refine ⟨fun unnamed => by rw [goodReading_unnamed unnamed], fun cell named => ?_⟩
  intro stored
  refine ⟨fun weak => by rw [goodReading_weak named weak], fun strong => ?_⟩
  rw [goodReading_strong named strong]
  refine ⟨fun none => by rw [acceptReading_unusable none]; rfl, fun k c inside usable => ?_⟩
  intro d old b last
  rw [acceptReading_usable inside usable]
  refine ⟨fun far => congrArg (fun t => Host.Outcome.next (advanceSweep y t)) ?_,
    fun close => congrArg (fun t => Host.Outcome.next (advanceSweep y t)) ?_⟩
  · exact if_pos far
  · exact if_neg (Nat.not_lt.2 close)

/-- What a failed attempt comes to, its fault already kept (R49, R50). -/
theorem attemptFails_eq (y : Sweep) (s : State) : attemptFails y s =
    let missed := { y with missed := y.missed + 1, missedRun := y.missedRun + 1 }
    if y.attempt ≤ s.cfg.parameters.scanRetries then
      s.withScn
        { s.scn with sweep := some { y with attempt := y.attempt + 1, timeout := s.cfg.parameters.replyTimeout } }
    else if y.missedRun < 3 then advanceSweep missed s
    else endSweep missed .faulted s := by
  by_cases run : y.missedRun < 3
  · have few : ¬faultedRun ≤ y.missedRun + 1 := by
      unfold faultedRun
      omega
    simp only [attemptFails, if_neg few, if_pos run]
  · have many : faultedRun ≤ y.missedRun + 1 := by
      unfold faultedRun
      omega
    simp only [attemptFails, if_pos many, if_neg run]

/-- Settles O30: the three failures are one failed attempt. -/
theorem failedAttemptsRetryOrMiss : Obligations.FailedAttemptsRetryOrMiss := by
  unfold Obligations.FailedAttemptsRetryOrMiss
  intro s
  refine ⟨fun idle => ⟨?_, fun intact code => ?_, fun intact sight temperature signal => ?_⟩, fun code => ?_,
    fun sight temperature signal => ?_, fun x sweeping => ?_⟩
  · show Host.Outcome.next (replyTimeoutEnds s) = _
    simp only [replyTimeoutEnds, idle]
  · simp only [exec_headFault, headFaultArrives, idle]
  · simp only [exec_reading, readingArrives, idle]
  · rw [exec_headFault, headFaultArrives]
    split <;> rfl
  · rw [exec_reading, readingArrives]
    split <;> rfl
  intro after
  refine ⟨?_, fun code => ?_, fun sight temperature signal other => ?_⟩
  · show Host.Outcome.next (replyTimeoutEnds s) = _
    simp only [replyTimeoutEnds, sweeping, attemptFails_eq]
    rfl
  · simp only [exec_headFault, headFaultArrives, sweeping, if_true, attemptFails_eq]
    rfl
  · rw [exec_reading, readingArrives_mismatch sweeping other, attemptFails_eq]

/-! ### The bias -/

/-- A quotient truncated toward zero lies between zero and its dividend, and is zero exactly inside the divisor. -/
theorem truncated_spec (n : Int) {d : Nat} (hd : 0 < d) :
    (0 ≤ n → 0 ≤ truncated n d ∧ truncated n d ≤ n) ∧ (n ≤ 0 → n ≤ truncated n d ∧ truncated n d ≤ 0) ∧
      (truncated n d = 0 ↔ n.natAbs < d) := by
  unfold truncated
  have size : (Int.tdiv n d).natAbs = n.natAbs / d := by rw [Int.natAbs_tdiv]; rfl
  have small : n.natAbs / d ≤ n.natAbs := Nat.div_le_self ..
  have zero : n.natAbs / d = 0 ↔ n.natAbs < d := by rw [Nat.div_eq_zero_iff]; omega
  refine ⟨fun pos => ?_, fun neg => ?_, ?_⟩
  · have := Int.tdiv_nonneg pos (Int.natCast_nonneg d)
    omega
  · have flipped : 0 ≤ Int.tdiv (-n) d := Int.tdiv_nonneg (by omega) (Int.natCast_nonneg d)
    rw [Int.neg_tdiv] at flipped
    omega
  · rw [← zero, ← size, Int.natAbs_eq_zero]

/-- Settles O31: the truncated part of the way to the difference is never more than the way. -/
theorem biasMovesTowardDifference : Obligations.BiasMovesTowardDifference := by
  unfold Obligations.BiasMovesTowardDifference
  intro shift b d low high new
  obtain ⟨up, down, still⟩ := truncated_spec (d - b) (Nat.two_pow_pos shift)
  have new_eq : new = clampInt (-1000) 1000 (b + truncated (d - b) (2 ^ shift : Nat)) := by
    show movedBias shift b d = _
    rw [movedBias, clampBias]
    push_cast
    rfl
  have whole : shift = 0 → truncated (d - b) (2 ^ shift : Nat) = d - b := by
    rintro rfl
    exact Int.tdiv_one _
  generalize truncated (d - b) (2 ^ shift : Nat) = q at *
  rw [new_eq]
  unfold clampInt
  generalize 2 ^ shift = width at *
  refine ⟨by omega, by omega, fun h => by omega, fun h => by omega, fun h => by omega, fun far l u => ?_, fun h => by omega⟩
  omega

end Sys2Proof.Machine

/-! ## Sweep requests, sight edits, and Cancel Sweep -/

namespace Sys2Proof.Machine

/-! ### Requests and expiries -/

section
variable {s : State} {kind : SweepKind}

theorem handleSweepRequest_idle (idle : s.scn.sweep = none) : handleSweepRequest kind s = (startSweep kind s, .ok) := by
  simp only [handleSweepRequest, idle]

theorem handleSweepRequest_empty (sweeping : s.scn.sweep.isSome = true) (empty : s.scn.pendingSlot = none) :
    handleSweepRequest kind s = (setPendingSlot kind s, .ok) := by
  obtain ⟨x, hx⟩ := Option.isSome_iff_exists.1 sweeping
  simp only [handleSweepRequest, hx, empty]

theorem handleSweepRequest_joins (sweeping : s.scn.sweep.isSome = true)
    (joins : s.scn.pendingSlot = some .full ∨ s.scn.pendingSlot = some kind) :
    handleSweepRequest kind s = (s, .merged) := by
  obtain ⟨x, hx⟩ := Option.isSome_iff_exists.1 sweeping
  rcases joins with h | h
  · simp only [handleSweepRequest, hx, h]
  · cases kind <;> simp only [handleSweepRequest, hx, h, if_true]

theorem handleSweepRequest_widens {j : Nat} (sweeping : s.scn.sweep.isSome = true)
    (waiting : s.scn.pendingSlot = some (.coil j)) : handleSweepRequest .full s = (setPendingSlot .full s, .merged) := by
  obtain ⟨x, hx⟩ := Option.isSome_iff_exists.1 sweeping
  simp only [handleSweepRequest, hx, waiting]

theorem handleSweepRequest_busy {j k : Nat} (sweeping : s.scn.sweep.isSome = true)
    (waiting : s.scn.pendingSlot = some (.coil j)) (other : k ≠ j) :
    handleSweepRequest (.coil k) s = (s, .scannerBusy) := by
  obtain ⟨x, hx⟩ := Option.isSome_iff_exists.1 sweeping
  simp only [handleSweepRequest, hx, waiting, if_neg (Ne.symm other)]

/-! The checks of R55. -/

theorem sweepRequestRefusal_full : sweepRequestRefusal .full s =
    if s.scn.sightCount = 0 then some .notConfigured else none := by
  by_cases h : s.scn.sightCount = 0
  · rw [sweepRequestRefusal, firstRefusal_of_true (decide_eq_true h), if_pos h]
  · rw [sweepRequestRefusal, firstRefusal_of_false (decide_eq_false h), if_neg h, firstRefusal_nil]

theorem sweepRequestRefusal_coil (k : Nat) : sweepRequestRefusal (.coil k) s =
    if 7 < k then some .badArgument else if s.scn.sightCount = 0 ∨ s.coil k = none then some .notConfigured else none := by
  by_cases above : 7 < k
  · rw [sweepRequestRefusal, firstRefusal_of_true (decide_eq_true above), if_pos above]
  rw [sweepRequestRefusal, firstRefusal_of_false (decide_eq_false above), if_neg above]
  by_cases none : s.scn.sightCount = 0
  · rw [firstRefusal_of_true (decide_eq_true none), if_pos (.inl none)]
  rw [firstRefusal_of_false (decide_eq_false none)]
  cases hc : s.coil k with
  | none => simp [firstRefusal]
  | some c => simp [firstRefusal, none]

variable {l : Link} {tag : Byte}

/-- A request that the checks refuse, or that is handled (R55). -/
theorem exec_requestSweep_refused (free : Free s l) {arg : SweepKindArg} {r : Result}
    (named : arg = .full ∧ kind = .full ∨ ∃ k, arg = .coil k ∧ kind = .coil k) (h : sweepRequestRefusal kind s = some r) :
    exec (.requestSweep l tag arg) s = .next (replied s l tag 0x20 r []) := by
  refine congrArg Host.Outcome.next (serve_open free rfl rfl (by decide) ?_)
  rcases named with ⟨rfl, rfl⟩ | ⟨k, rfl, rfl⟩ <;> simp only [ownRequestSweep, h, refuse]

theorem exec_requestSweep_handled (free : Free s l) {arg : SweepKindArg} {t : State} {r : Result}
    (named : arg = .full ∧ kind = .full ∨ ∃ k, arg = .coil k ∧ kind = .coil k) (h : sweepRequestRefusal kind s = none)
    (handled : handleSweepRequest kind s = (t, r)) :
    exec (.requestSweep l tag arg) s = .next (replied t l tag 0x20 r []) := by
  refine congrArg Host.Outcome.next (serve_open free rfl rfl (by decide) ?_)
  rcases named with ⟨rfl, rfl⟩ | ⟨k, rfl, rfl⟩ <;> simp only [ownRequestSweep, h, handled]

theorem sweepExpires_running (running : s.tmb.sweepCounter.isSome = true) : sweepExpires s =
    let t := s.withTmb { s.tmb with sweepCounter := some s.cfg.parameters.sweepPeriod }
    if s.scn.sightCount = 0 then t.withScn { s.scn with sweepSkips := raise max16 s.scn.sweepSkips }
    else (handleSweepRequest .full t).1 := by
  obtain ⟨n, hn⟩ := Option.isSome_iff_exists.1 running
  by_cases none : s.scn.sightCount = 0 <;>
    simp only [sweepExpires, hn, sweepRequestRefusal_full, State.withTmb_scn, none, if_true, if_false]

end

/-- Settles O27: by the checks, then by the sweep state and the pending slot. -/
theorem sweepRequestsByTable : Obligations.SweepRequestsByTable := by
  unfold Obligations.SweepRequestsByTable
  intro s slot reloaded
  refine ⟨fun l tag free => ?_, fun stopped => ?_, fun running => ⟨fun none => ?_, fun some => ⟨fun idle => ?_,
    fun sweeping other => ?_, fun sweeping full => ?_⟩⟩⟩
  · intro sent answer joins
    refine ⟨fun code => ?_, fun k above => ?_, fun none => ⟨?_, fun k inside => ?_⟩, fun some k inside undefined => ?_,
      fun some arg kind request => ?_⟩
    · exact congrArg Host.Outcome.next (serve_open free rfl rfl (by decide) rfl)
    · refine exec_requestSweep_refused free (.inr ⟨k, rfl, rfl⟩) ?_
      rw [sweepRequestRefusal_coil, if_pos above]
    · refine exec_requestSweep_refused free (.inl ⟨rfl, rfl⟩) ?_
      rw [sweepRequestRefusal_full, if_pos none]
    · refine exec_requestSweep_refused free (.inr ⟨k, rfl, rfl⟩) ?_
      rw [sweepRequestRefusal_coil, if_neg (Nat.not_lt.2 inside), if_pos (.inl none)]
    · refine exec_requestSweep_refused free (.inr ⟨k, rfl, rfl⟩) ?_
      rw [sweepRequestRefusal_coil, if_neg (Nat.not_lt.2 inside), if_pos (.inr undefined)]
    have named : arg = .full ∧ kind = .full ∨ ∃ k, arg = .coil k ∧ kind = .coil k := by
      rcases request with full | ⟨k, -, -, coil⟩
      · exact .inl full
      · exact .inr ⟨k, coil⟩
    have passed : sweepRequestRefusal kind s = .none := by
      rcases request with ⟨-, rfl⟩ | ⟨k, inside, defined, -, rfl⟩
      · rw [sweepRequestRefusal_full, if_neg (by omega)]
      · rw [sweepRequestRefusal_coil, if_neg (Nat.not_lt.2 inside), if_neg]
        rintro (none | undefined)
        · omega
        · simp [undefined] at defined
    refine ⟨fun idle => ?_, fun sweeping empty => ?_, fun sweeping join => ?_, fun sweeping j waiting => ⟨?_, ?_⟩⟩
    · exact exec_requestSweep_handled free named passed (handleSweepRequest_idle idle)
    · exact exec_requestSweep_handled free named passed (handleSweepRequest_empty sweeping empty)
    · exact exec_requestSweep_handled free named passed (handleSweepRequest_joins sweeping join)
    · rintro rfl
      exact exec_requestSweep_handled free named passed (handleSweepRequest_widens sweeping waiting)
    · rintro k rfl other
      exact exec_requestSweep_handled free named passed (handleSweepRequest_busy sweeping waiting other)
  · show Host.Outcome.next (sweepExpires s) = _
    simp only [sweepExpires, stopped]
  · exact congrArg Host.Outcome.next ((sweepExpires_running running).trans (if_pos none))
  all_goals
    refine congrArg Host.Outcome.next ((sweepExpires_running running).trans ((if_neg (Nat.pos_iff_ne_zero.1 some)).trans ?_))
  · exact congrArg Prod.fst (handleSweepRequest_idle (s := reloaded) idle)
  · cases waiting : s.scn.pendingSlot with
    | none => exact congrArg Prod.fst (handleSweepRequest_empty (s := reloaded) sweeping waiting)
    | some kind =>
      cases kind with
      | full => exact absurd waiting other
      | coil j => exact congrArg Prod.fst (handleSweepRequest_widens (s := reloaded) sweeping waiting)
  · exact congrArg Prod.fst (handleSweepRequest_joins (s := reloaded) sweeping (.inl full))

/-! ### Sight edits -/

theorem interleaveValid_iff {count factor : Nat} : interleaveValid count factor = true ↔
    1 ≤ factor ∧ factor ≤ max 1 (count - 1) ∧ Nat.gcd factor count = 1 := decide_eq_true_iff

/-- A Define Sights list's cell numbers, judged entry by entry (R46). -/
theorem any_named_iff {entries : List (Option Nat)} {p : Nat → Bool} :
    (entries.any fun x => x.any p) = true ↔ ∃ cell, some cell ∈ entries ∧ p cell = true := by
  simp only [List.any_eq_true, Option.any_eq_true]
  constructor
  · rintro ⟨x, hx, cell, rfl, h⟩
    exact ⟨cell, hx, h⟩
  · rintro ⟨cell, hx, h⟩
    exact ⟨some cell, hx, cell, rfl, h⟩

/-- What sight `n` names once a list is applied (R46). -/
def sightAfter (first : Nat) (entries : List (Option Nat)) (sights : Table Nat) (n : Nat) : Option Nat :=
  if first ≤ n ∧ n < first + entries.length then (entries[n - first]?).join else Table.find sights n

theorem sightsAfter_eq (count first : Nat) (entries : List (Option Nat)) (sights : Table Nat) :
    sightsAfter count first entries sights =
      (List.range count).filterMap fun n => (sightAfter first entries sights n).map fun cell => (n, cell) := by
  unfold sightsAfter
  congr 1
  funext n
  by_cases listed : first ≤ n ∧ n < first + entries.length
  · have there : listedEntry first entries n = some (entries[n - first]'(by omega)) := by
      rw [listedEntry, if_pos listed.1, List.getElem?_eq_getElem]
    rw [there, sightAfter, if_pos listed, List.getElem?_eq_getElem]
    rfl
  · have absent : listedEntry first entries n = none := by
      unfold listedEntry
      split
      · exact List.getElem?_eq_none (by omega)
      · rfl
    rw [absent, sightAfter, if_neg listed]

/-- What the sight table holds after a Define Sights (R46). -/
theorem find_sightsAfter (count first : Nat) (entries : List (Option Nat)) (sights : Table Nat) (n : Nat) :
    Table.find (sightsAfter count first entries sights) n =
      if count ≤ n then none else sightAfter first entries sights n := by
  refine Option.ext fun v => ?_
  rw [Table.find_eq_some_iff (sightsAfter_rising ..), sightsAfter_eq]
  simp only [List.mem_filterMap, List.mem_range, Option.map_eq_some_iff, Prod.mk.injEq]
  constructor
  · rintro ⟨m, below, cell, named, rfl, rfl⟩
    rw [if_neg (Nat.not_le.2 below)]
    exact named
  · intro named
    split at named
    case isTrue => cases named
    case isFalse below => exact ⟨n, Nat.not_le.1 below, v, named, rfl, rfl⟩

theorem cancelSweepNow_sweeping {s : State} {x : Sweep} (sweeping : s.scn.sweep = some x) :
    cancelSweepNow s =
      appendEvent
        (s.withScn
          { s.scn with
            sweep := none, pendingSlot := none
            lastSweep := some
              { kind := x.kind, outcome := .cancelled, taken := x.taken, discarded := x.discarded
                missed := x.missed, lastFault := x.lastFault, endStamp := s.tmb.heaterClock
                clockSet := s.tmb.clockSet } })
        (sweepNote x .cancelled) := by
  simp only [cancelSweepNow, sweeping]
  rfl

/-- The checks of a Set Interleave with no sweep in progress (R47). -/
theorem serve_setInterleave {s : State} {l : Link} {tag : Byte} (ready : Ready s l) (factor : Nat) :
    exec (.setInterleave l tag s.cfg.generation factor) s = .next
      (if s.scn.sweep.isSome then editRefused s l tag 0x4A .scannerBusy
      else if interleaveValid s.scn.sightCount factor then
        edited (s.withScn { s.scn with interleave := factor }) l tag 0x4A .ok []
      else editRefused s l tag 0x4A .badArgument) := by
  refine congrArg Host.Outcome.next ?_
  cases sweeping : s.scn.sweep.isSome with
  | true => exact serve_edit_refused ready rfl (by decide) (firstRefusal_of_true sweeping _ _)
  | false =>
    cases valid : interleaveValid s.scn.sightCount factor with
    | true =>
      refine serve_edit_taken ready rfl (by decide) ?_
      rw [firstRefusal_of_false sweeping, firstRefusal_of_false (by rw [valid]; rfl), firstRefusal_nil]
    | false =>
      refine serve_edit_refused ready rfl (by decide) ?_
      rw [firstRefusal_of_false sweeping, firstRefusal_of_true (by rw [valid]; rfl)]

/-- Two checks of one result are one check. -/
theorem firstRefusal_or (a b : Bool) (r : Result) (rest : List (Bool × Result)) :
    firstRefusal ((a, r) :: (b, r) :: rest) = firstRefusal ((a || b, r) :: rest) := by
  cases a <;> cases b <;> rfl

/-- The checks of a Define Sights, those of BAD_ARGUMENT for the list itself as one (R46). -/
theorem defineSightsRefusal_eq (count first : Nat) (entries : List (Option Nat)) (s : State) :
    defineSightsRefusal count first entries s = firstRefusal
      [(s.scn.sweep.isSome, .scannerBusy),
        (decide (512 < count) || decide (entries ≠ [] ∧ count < first + entries.length)
          || entries.any fun x => x.any fun cell => decide (2047 < cell), .badArgument),
        (entries.any fun x => x.any fun cell => !s.inUse cell, .notConfigured),
        (!interleaveValid count s.scn.interleave, .badArgument)] := by
  unfold defineSightsRefusal
  cases s.scn.sweep.isSome
  · rw [firstRefusal_of_false rfl, firstRefusal_of_false rfl, ← firstRefusal_or, ← firstRefusal_or]
  · rfl

/-- Settles O32: the checks in their order, then the sight table number by number. -/
theorem sightEditsAndCancel : Obligations.SightEditsAndCancel := by
  unfold Obligations.SightEditsAndCancel
  intro s l tag ready g valid
  refine ⟨fun factor => ⟨fun sweeping => ?_, fun idle bad => ?_, fun idle good => ?_⟩, fun canonical count first entries => ?_,
    fun idle => ?_, fun x sweeping => ?_⟩
  · rw [serve_setInterleave ready, if_pos sweeping]
  · rw [serve_setInterleave ready, if_neg (by simp [idle]), if_neg (mt interleaveValid_iff.1 bad)]
  · rw [serve_setInterleave ready, if_neg (by simp [idle]), if_pos (interleaveValid_iff.2 good)]
  · intro refused inside named inUse
    have listed (fits : inside) (cells : named) (few : count ≤ 512) :
        (decide (512 < count) || decide (entries ≠ [] ∧ count < first + entries.length)
          || entries.any fun x => x.any fun cell => decide (2047 < cell)) = false := by
      rw [Bool.or_eq_false_iff, Bool.or_eq_false_iff, ← Bool.not_eq_true, ← Bool.not_eq_true, ← Bool.not_eq_true, any_named_iff,
        decide_eq_true_eq, decide_eq_true_eq]
      refine ⟨⟨by omega, fun ⟨full, out⟩ => ?_⟩, fun ⟨cell, hc, above⟩ => absurd (cells cell hc) (by simpa using above)⟩
      rcases fits with empty | fit
      · exact full empty
      · omega
    have used (cells : inUse) : (entries.any fun x => x.any fun cell => !s.inUse cell) = false := by
      rw [← Bool.not_eq_true, any_named_iff]
      rintro ⟨cell, hc, out⟩
      simp [cells cell hc] at out
    refine ⟨fun sweeping => ?_, fun idle bad => ?_, fun idle few fits cells unused => ?_,
      fun idle few fits cells uses invalid => ?_, fun idle few fits cells uses good => ?_⟩
    · refine congrArg Host.Outcome.next (serve_edit_refused ready rfl (by decide) ?_)
      rw [defineSightsRefusal_eq, firstRefusal_of_true sweeping]
    · refine congrArg Host.Outcome.next (serve_edit_refused ready rfl (by decide) ?_)
      rw [defineSightsRefusal_eq, firstRefusal_of_false (by rw [idle]; rfl), firstRefusal_of_true]
      rw [Bool.or_eq_true, Bool.or_eq_true, any_named_iff, decide_eq_true_eq, decide_eq_true_eq]
      rcases bad with many | outside | unnamed
      · exact .inl (.inl many)
      · obtain ⟨some, out⟩ := not_or.1 outside
        exact .inl (.inr ⟨some, by omega⟩)
      · simp only [named, not_forall] at unnamed
        obtain ⟨cell, hc, above⟩ := unnamed
        exact .inr ⟨cell, hc, by simpa using above⟩
    · refine congrArg Host.Outcome.next (serve_edit_refused ready rfl (by decide) ?_)
      rw [defineSightsRefusal_eq, firstRefusal_of_false (by rw [idle]; rfl), firstRefusal_of_false (listed fits cells few),
        firstRefusal_of_true]
      simp only [inUse, not_forall] at unused
      obtain ⟨cell, hc, out⟩ := unused
      exact any_named_iff.2 ⟨cell, hc, by simpa using out⟩
    · refine congrArg Host.Outcome.next (serve_edit_refused ready rfl (by decide) ?_)
      rw [defineSightsRefusal_eq, firstRefusal_of_false (by rw [idle]; rfl), firstRefusal_of_false (listed fits cells few),
        firstRefusal_of_false (used uses), firstRefusal_of_true]
      simpa using mt interleaveValid_iff.1 invalid
    · refine ⟨_, _, congrArg Host.Outcome.next (serve_edit_taken ready rfl (by decide) ?_),
        find_sightsAfter count first entries s.scn.sights, fun cell x => ?_⟩
      · rw [defineSightsRefusal_eq, firstRefusal_of_false (by rw [idle]; rfl), firstRefusal_of_false (listed fits cells few),
          firstRefusal_of_false (used uses), firstRefusal_of_false (by simpa using interleaveValid_iff.2 good),
          firstRefusal_nil]
      · rw [Table.find_filter canonical.scans]
        simp only [decide_eq_true_eq]
  · refine congrArg Host.Outcome.next (serve_operating ready rfl (by decide) ?_)
    simp only [ownCancelSweep, cancelSweepNow, idle]
  · refine congrArg Host.Outcome.next ((serve_operating ready rfl (by decide) rfl).trans ?_)
    rw [cancelSweepNow_sweeping sweeping, sweepNote_eq]
    rfl

end Sys2Proof.Machine

/-! ## Mapping, pass expiries, hand-offs and the walk of a pass -/

namespace Sys2Proof.Machine

/-! ### Start Mapping and Stop Mapping -/

section
variable {s : State} {l : Link}

theorem ownStartMapping_running (running : s.map.mapState ≠ .stopped) : ownStartMapping s = (s, .now .wrongState []) :=
  if_pos running

theorem ownStartMapping_empty (stopped : s.map.mapState = .stopped) (empty : s.cfg.coils = []) :
    ownStartMapping s = (s, .now .notConfigured []) := by
  rw [ownStartMapping, if_neg (not_not.2 stopped), if_pos empty]
  rfl

theorem ownStartMapping_taken (stopped : s.map.mapState = .stopped) (some : s.cfg.coils ≠ []) :
    ownStartMapping s =
      ({ s with
          map := { s.map with cells := [], establishCount := 0, mapState := .establishing }
          alm := { s.alm with windows := [] }
          tmb := { s.tmb with passCounter := .some s.cfg.parameters.passPeriod } }, .now .ok []) := by
  rw [ownStartMapping, if_neg (not_not.2 stopped), if_neg some]
  rfl

theorem ownStopMapping_stopped (stopped : s.map.mapState = .stopped) : ownStopMapping l s = (s, .now .wrongState []) :=
  if_pos stopped

theorem ownStopMapping_idle (running : s.map.mapState ≠ .stopped) (idle : s.map.pass = none) :
    ownStopMapping l s = (stopTakesEffect l none s, .now .ok []) := by
  rw [ownStopMapping, if_neg running, if_pos (by rw [idle]; rfl)]

theorem ownStopMapping_walking (running : s.map.mapState ≠ .stopped) (walking : s.map.pass.isSome = true) :
    ownStopMapping l s =
      (if s.map.stopPending = none then s.withMap { s.map with stopPending := some l } else s, .held) := by
  obtain ⟨p, hp⟩ := Option.isSome_iff_exists.1 walking
  rw [ownStopMapping, if_neg running, if_neg (by simp [hp])]
  cases pending : s.map.stopPending <;> rfl

end

/-- Settles O33: the owners go by the map state, the coils and the pass. -/
theorem mappingStartsAndStops : Obligations.MappingStartsAndStops := by
  unfold Obligations.MappingStartsAndStops
  intro s l tag ready
  refine ⟨fun running => ?_, fun stopped empty => ?_, fun stopped some => ?_, fun stopped => ?_, fun running idle => ?_,
    fun running walking => ?_⟩
  · exact congrArg Host.Outcome.next (serve_operating ready rfl (by decide) (ownStartMapping_running running))
  · exact congrArg Host.Outcome.next (serve_operating ready rfl (by decide) (ownStartMapping_empty stopped empty))
  · exact congrArg Host.Outcome.next (serve_operating ready rfl (by decide) (ownStartMapping_taken stopped some))
  · exact congrArg Host.Outcome.next (serve_operating ready rfl (by decide) (ownStopMapping_stopped stopped))
  · exact congrArg Host.Outcome.next (serve_operating ready rfl (by decide) (ownStopMapping_idle running idle))
  · exact congrArg Host.Outcome.next (serve_operating_held ready rfl (by decide) (ownStopMapping_walking running walking))

/-! ### Pass expiries and hand-offs -/

section
variable {s : State} {p : Pass}

theorem passExpires_passing (running : s.tmb.passCounter.isSome = true) (passing : s.map.pass = some p) :
    passExpires s = overrun p (s.withTmb { s.tmb with passCounter := some s.cfg.parameters.passPeriod }) := by
  obtain ⟨n, hn⟩ := Option.isSome_iff_exists.1 running
  simp only [passExpires, hn, State.withTmb_map, passing]

theorem passExpires_idle (running : s.tmb.passCounter.isSome = true) (idle : s.map.pass = none) :
    passExpires s =
      let t := s.withTmb { s.tmb with passCounter := some s.cfg.parameters.passPeriod }
      t.withMap { s.map with passNumber := nextPassNumber s.map.passNumber, pass := some (newPass t) } := by
  obtain ⟨n, hn⟩ := Option.isSome_iff_exists.1 running
  simp only [passExpires, hn, State.withTmb_map, idle]

theorem overrun_counted (free : s.map.stopPending = none) : overrun p s =
    appendEvent (s.withMap { s.map with overruns := raise max16 s.map.overruns })
      { kind := .passOverrun, subject := p.coil, detail := (raise max16 s.map.overruns : Nat) } := by
  rw [overrun, if_neg (by simp [free])]

theorem overrun_stopping (pending : s.map.stopPending.isSome = true) : overrun p s = s := if_pos pending

/-- A hand-off under way: the evaluation, then the pass absent, then the stop that waits (R86). -/
theorem handsOff_handing (passing : s.map.pass = some p) (handing : p.phase = .handingOff) : handsOff s =
    let judged := if s.map.mapState = .mapping
      then evaluatePass p.number ((s.map.lastPass.map LastPass.endUptime).getD 0) s else s
    let idle := judged.withMap { s.map with pass := none }
    match s.map.stopPending with
    | some l => stopTakesEffect l none idle
    | none => idle := by
  have walked : ¬p.phase = .walking := by simp [handing]
  have kept : (if s.map.mapState = .mapping then evaluatePass p.number (handedUptime s) s else s).map = s.map := by
    split
    · rw [evaluatePass_frame]
      rfl
    · rfl
  simp only [handsOff, passing, if_neg walked, State.established, decide_eq_true_eq, State.withMap_map, kept]
  rfl

end

/-- Settles O35: by the counter, the pass and the pending stop. -/
theorem passExpiriesAndHandOffs : Obligations.PassExpiriesAndHandOffs := by
  unfold Obligations.PassExpiriesAndHandOffs
  intro s reloaded number
  refine ⟨fun stopped => ?_, fun running => ⟨fun k c rest idle coils => ?_, fun p passing free => ?_,
    fun passing pending => ?_⟩, fun idle => ?_, fun p passing handing => ?_⟩
  · show Host.Outcome.next (passExpires s) = _
    simp only [passExpires, stopped]
  · refine congrArg Host.Outcome.next ((passExpires_idle running idle).trans ?_)
    have first : firstCoil (geometryOf s.cfg.coils) = some k := by rw [coils]; rfl
    simp only [newPass, State.geometry, State.withTmb_cfg, first]
    rfl
  · exact congrArg Host.Outcome.next ((passExpires_passing running passing).trans (overrun_counted (s := reloaded) free))
  · obtain ⟨p, hp⟩ := Option.isSome_iff_exists.1 passing
    exact congrArg Host.Outcome.next ((passExpires_passing running hp).trans (overrun_stopping (s := reloaded) pending))
  · show Host.Outcome.next (handsOff s) = _
    rcases idle with none | ⟨p, passing, walking⟩
    · simp only [handsOff, none]
    · simp only [handsOff, passing, if_pos walking]
  · intro judged idle
    have handed : exec .handOffEvaluation s = .next (match s.map.stopPending with
        | some l => stopTakesEffect l none idle
        | none => idle) := congrArg Host.Outcome.next (handsOff_handing passing handing)
    refine ⟨?_, fun free => ?_, fun l pending => ?_⟩
    · show Host.Outcome.next (tubeSteps s) = _
      simp only [tubeSteps, passing, if_pos handing]
    · simp only [handed, free]
    · simp only [handed, pending]

/-! ### The walk -/

section
variable {s : State} {p : Pass} {c : CoilDef}

theorem tubeSteps_stopping (passing : s.map.pass = some p) (walking : p.phase = .walking) {l : Link}
    (pending : s.map.stopPending = some l) : tubeSteps s = stopTakesEffect l (some p) s := by
  have walks : ¬p.phase = .handingOff := by simp [walking]
  simp only [tubeSteps, passing, if_neg walks, pending]

theorem tubeSteps_edited (passing : s.map.pass = some p) (walking : p.phase = .walking)
    (free : s.map.stopPending = none) (edited : p.generation ≠ s.cfg.generation) :
    tubeSteps s = abandonPass p .generation s := by
  have walks : ¬p.phase = .handingOff := by simp [walking]
  simp only [tubeSteps, passing, if_neg walks, free, if_pos edited]

theorem tubeSteps_walks (passing : s.map.pass = some p) (walking : p.phase = .walking)
    (free : s.map.stopPending = none) (same : p.generation = s.cfg.generation) (coil : s.coil p.coil = some c) :
    tubeSteps s = walkTube p c s := by
  have walks : ¬p.phase = .handingOff := by simp [walking]
  simp only [tubeSteps, passing, if_neg walks, free, if_neg (not_not.2 same), coil]

theorem tubeAfter_inside (coil : s.coil p.coil = some c) (more : p.tube + 1 < c.tubes) :
    tubeAfter s.geometry p.coil p.tube = some (p.coil, p.tube + 1) := by
  have dims : Table.find s.geometry p.coil = some c.dims := by rw [State.find_geometry, coil]; rfl
  simp only [tubeAfter, dims]
  exact if_pos more

theorem tubeAfter_last (coil : s.coil p.coil = some c) (last : c.tubes ≤ p.tube + 1) :
    tubeAfter s.geometry p.coil p.tube = (coilAfter s.geometry p.coil).map fun j => (j, 0) := by
  have dims : Table.find s.geometry p.coil = some c.dims := by rw [State.find_geometry, coil]; rfl
  simp only [tubeAfter, dims]
  exact if_neg (Nat.not_lt.2 last)

/-- The completion of a pass in the state `t` that the last tube write left of `s` (R84, R85). -/
theorem completePass_written (q : Pass) {t : State}
    (frame : t = s.withMap { s.map with cells := t.map.cells, peaks := t.map.peaks, exposure := t.map.exposure }) :
    let missing := coilSet s.geometry &&& ~~~q.anchored
    let count := if missing = 0 then raise max8 s.map.establishCount else 0
    let completed := t.withMap
      { t.map with
        pass := some { q with phase := .handingOff }, lastCompleted := q.number, establishCount := count
        lastPass := some
          { number := q.number, completed := true, reason := none, generation := q.generation
            tubesWritten := q.tubesWritten, wideGaps := q.wideGaps, unanchored := some missing
            endStamp := s.tmb.heaterClock, clockSet := s.tmb.clockSet, endUptime := s.tmb.uptime } }
    completePass q t = if s.map.mapState = .establishing ∧ s.cfg.parameters.establishPasses ≤ count then
        appendEvent (completed.withMap { completed.map with mapState := .mapping })
          { kind := .mapEstablished, subject := 0, detail := count }
      else completed := by
  have geometry : t.geometry = s.geometry := by rw [frame]; rfl
  have tmb : t.tmb = s.tmb := by rw [frame]; rfl
  have cfg : t.cfg = s.cfg := by rw [frame]; rfl
  have state : t.map.mapState = s.map.mapState := by rw [frame]; rfl
  have count : t.map.establishCount = s.map.establishCount := by rw [frame]; rfl
  simp only [completePass, lastPassOf, geometry, tmb, cfg, state, count]
  rfl

end

/-- Settles O37: the checks of a tube step in their order, then the tube after the one written. -/
theorem tubeStepMovesOrEndsPass : Obligations.TubeStepMovesOrEndsPass := by
  unfold Obligations.TubeStepMovesOrEndsPass
  intro s p passing walking record
  refine ⟨fun l pending => ?_, fun free edited => ?_, fun free same c coil => ?_⟩
  · exact congrArg Host.Outcome.next (tubeSteps_stopping passing walking pending)
  · exact congrArg Host.Outcome.next (tubeSteps_edited passing walking free edited)
  intro anchors q written missing count completed
  have walked : exec .tubeStep s = .next (walkTube p c s) :=
    congrArg Host.Outcome.next (tubeSteps_walks passing walking free same coil)
  have frame : written = _ := Effect.writeTube_frame p.number p.coil c p.tube s
  have moved {k t : Nat} (next : tubeAfter s.geometry p.coil p.tube = some (k, t)) :
      walkTube p c s = written.withMap { written.map with pass := some { q with coil := k, tube := t } } := by
    simp only [walkTube, next]
    rfl
  have ended (next : tubeAfter s.geometry p.coil p.tube = none) : walkTube p c s = completePass q written := by
    simp only [walkTube, next]
    rfl
  refine ⟨fun more => ?_, fun k last after => ?_, fun last after => ?_⟩
  · rw [walked, moved (tubeAfter_inside coil more)]
  · rw [walked, moved (by rw [tubeAfter_last coil last, after]; rfl)]
  rw [walked, ended (by rw [tubeAfter_last coil last, after]; rfl), completePass_written q frame]
  refine ⟨fun establishing enough => congrArg Host.Outcome.next (if_pos ⟨establishing, enough⟩),
    fun still => congrArg Host.Outcome.next (if_neg fun ⟨establishing, enough⟩ => ?_)⟩
  rcases still with other | few
  · exact other establishing
  · exact absurd enough (Nat.not_le.2 few)

end Sys2Proof.Machine

/-! ## Interpolation, extension and neighbour fill -/

namespace Sys2Proof.Machine

/-! ### The nearest anchors -/

/-- The first number of a range that `f` answers for. -/
theorem findSome?_range'_eq_some {α : Type} {f : Nat → Option α} {first n : Nat} {b : α} :
    (List.range' first n).findSome? f = some b ↔
      ∃ j, first ≤ j ∧ j < first + n ∧ f j = some b ∧ ∀ i, first ≤ i → i < j → f i = none := by
  induction n generalizing first with
  | zero => simp; omega
  | succ n ih =>
    rw [List.range'_succ, List.findSome?_cons]
    cases hf : f first with
    | some a =>
      constructor
      · rintro ⟨⟩
        exact ⟨first, Nat.le_refl _, by omega, hf, by omega⟩
      · rintro ⟨j, low, -, found, before⟩
        obtain rfl | above := Nat.eq_or_lt_of_le low
        · exact hf.symm.trans found
        · exact nomatch (before first (Nat.le_refl _) above).symm.trans hf
    | none =>
      show (List.range' (first + 1) n).findSome? f = some b ↔ _
      rw [ih]
      refine exists_congr fun j => ⟨?_, ?_⟩
      · rintro ⟨low, high, found, before⟩
        refine ⟨by omega, by omega, found, fun i hi below => ?_⟩
        obtain rfl | above := Nat.eq_or_lt_of_le hi
        · exact hf
        · exact before i above below
      · rintro ⟨low, high, found, before⟩
        have above : first ≠ j := by
          rintro rfl
          exact nomatch hf.symm.trans found
        exact ⟨by omega, by omega, found, fun i hi => before i (by omega)⟩

section
variable {anchors : List (Option Direct)} {e j : Nat} {v : Int}

theorem anchorAt_lt {d : Direct} (h : anchorAt anchors j = some d) : j < anchors.length := by
  obtain ⟨inside, -⟩ := List.getElem?_eq_some_iff.1 (Option.join_eq_some_iff.1 h)
  exact inside

theorem anchorBelow_eq_some_iff : anchorBelow anchors e = some (j, v) ↔
    j < e ∧ (∃ d, anchorAt anchors j = some d ∧ d.value = v) ∧ ∀ i, j < i → i < e → anchorAt anchors i = none := by
  induction e with
  | zero => simp [anchorBelow]
  | succ e ih =>
    unfold anchorBelow
    cases here : anchorAt anchors e with
    | some d =>
      constructor
      · rintro ⟨⟩
        exact ⟨Nat.lt_succ_self _, ⟨d, here, rfl⟩, by omega⟩
      · rintro ⟨below, ⟨d', found, rfl⟩, between⟩
        obtain rfl | above := Nat.eq_or_lt_of_le (Nat.le_of_lt_succ below)
        · cases found.symm.trans here
          rfl
        · exact nomatch (between e above (Nat.lt_succ_self _)).symm.trans here
    | none =>
      dsimp only
      rw [ih]
      constructor
      · rintro ⟨below, found, between⟩
        refine ⟨by omega, found, fun i low high => ?_⟩
        obtain rfl | inside := Nat.eq_or_lt_of_le (Nat.le_of_lt_succ high)
        · exact here
        · exact between i low inside
      · rintro ⟨below, ⟨d, found, value⟩, between⟩
        have other : j ≠ e := by
          rintro rfl
          exact nomatch here.symm.trans found
        exact ⟨by omega, ⟨d, found, value⟩, fun i low high => between i low (by omega)⟩

theorem anchorBelow_eq_none (h : ∀ i, i < e → anchorAt anchors i = none) : anchorBelow anchors e = none := by
  by_contra some
  obtain ⟨⟨j, v⟩, found⟩ := Option.ne_none_iff_exists'.1 some
  obtain ⟨below, ⟨d, at_j, -⟩, -⟩ := anchorBelow_eq_some_iff.1 found
  exact nomatch (h j below).symm.trans at_j

theorem anchorAbove_eq_some_iff : anchorAbove anchors e = some (j, v) ↔
    e < j ∧ (∃ d, anchorAt anchors j = some d ∧ d.value = v) ∧ ∀ i, e < i → i < j → anchorAt anchors i = none := by
  unfold anchorAbove
  rw [findSome?_range'_eq_some]
  constructor
  · rintro ⟨k, low, -, found, between⟩
    obtain ⟨d, at_k, ⟨⟩⟩ := Option.map_eq_some_iff.1 found
    exact ⟨by omega, ⟨d, at_k, rfl⟩, fun i hi below => Option.map_eq_none_iff.1 (between i (by omega) below)⟩
  · rintro ⟨above, ⟨d, at_j, rfl⟩, between⟩
    have inside := anchorAt_lt at_j
    exact ⟨j, by omega, by omega, by rw [at_j]; rfl, fun i hi below => by rw [between i (by omega) below]; rfl⟩

theorem anchorAbove_eq_none (h : ∀ i, e < i → anchorAt anchors i = none) : anchorAbove anchors e = none := by
  by_contra some
  obtain ⟨⟨j, v⟩, found⟩ := Option.ne_none_iff_exists'.1 some
  obtain ⟨above, ⟨d, at_j, -⟩, -⟩ := anchorAbove_eq_some_iff.1 found
  exact nomatch (h j above).symm.trans at_j

end

/-! ### Wide gaps -/

section
variable {anchors : List (Option Direct)} {maxGap : Nat}

/-- The gap above the anchor at `j` is wide (R77). -/
def WideGap (anchors : List (Option Direct)) (maxGap j : Nat) : Prop :=
  ∃ k v w, (∃ d, anchorAt anchors j = some d ∧ d.value = v) ∧ (∃ d, anchorAt anchors k = some d ∧ d.value = w) ∧ j < k ∧
    (∀ i, j < i → i < k → anchorAt anchors i = none) ∧ maxGap < k - j - 1

theorem opensWideGap_succ_iff {j : Nat} : opensWideGap maxGap anchors (j + 1) = true ↔ WideGap anchors maxGap j := by
  unfold opensWideGap
  constructor
  · intro opens
    obtain ⟨bare, gap⟩ := Bool.and_eq_true_iff.1 opens
    have bare := Option.isNone_iff_eq_none.1 bare
    cases low : anchorBelow anchors (j + 1) with
    | none => simp [low] at gap
    | some x =>
      cases high : anchorAbove anchors (j + 1) with
      | none => simp [low, high] at gap
      | some y =>
        obtain ⟨i, v⟩ := x
        obtain ⟨k, w⟩ := y
        simp only [low, high, Bool.and_eq_true, decide_eq_true_eq, Nat.succ.injEq] at gap
        obtain ⟨rfl, wide⟩ := gap
        obtain ⟨-, anchored, -⟩ := anchorBelow_eq_some_iff.1 low
        obtain ⟨above, anchored', between⟩ := anchorAbove_eq_some_iff.1 high
        refine ⟨k, v, w, anchored, anchored', by omega, fun m hm below => ?_, wide⟩
        obtain rfl | past := Nat.eq_or_lt_of_le (Nat.succ_le_of_lt hm)
        · exact bare
        · exact between m past below
  · rintro ⟨k, v, w, anchored, anchored', above, between, wide⟩
    have low : anchorBelow anchors (j + 1) = some (j, v) := anchorBelow_eq_some_iff.2 ⟨by omega, anchored, by omega⟩
    have high : anchorAbove anchors (j + 1) = some (k, w) :=
      anchorAbove_eq_some_iff.2 ⟨by omega, anchored', fun i hi below => between i (by omega) below⟩
    rw [between (j + 1) (by omega) (by omega), low, high]
    simp [gapSize, wide]

theorem opensWideGap_zero : opensWideGap maxGap anchors 0 = false := by
  simp [opensWideGap, anchorBelow]

/-- The wide gaps are counted once each, by the anchor below them (R77). -/
theorem wideGaps_eq (maxGap : Nat) (anchors : List (Option Direct)) :
    ∃ gaps : List Nat, gaps.Nodup ∧ (∀ j, j ∈ gaps ↔ WideGap anchors maxGap j) ∧ wideGaps maxGap anchors = gaps.length := by
  have positive : ∀ e ∈ (List.range anchors.length).filter (opensWideGap maxGap anchors), e ≠ 0 := by
    rintro e he rfl
    have := (List.mem_filter.1 he).2
    rw [opensWideGap_zero] at this
    cases this
  refine ⟨((List.range anchors.length).filter (opensWideGap maxGap anchors)).map Nat.pred, ?_, fun j => ?_, ?_⟩
  · refine (List.nodup_range.filter _).map_on fun e he f hf same => ?_
    have := positive e he
    have := positive f hf
    simp only [Nat.pred_eq_sub_one] at same
    omega
  · rw [List.mem_map, ← opensWideGap_succ_iff]
    constructor
    · rintro ⟨e, he, rfl⟩
      rw [Nat.pred_eq_sub_one, Nat.sub_add_cancel (Nat.pos_of_ne_zero (positive e he))]
      exact (List.mem_filter.1 he).2
    · intro opens
      obtain ⟨k, v, w, -, ⟨d, at_k, -⟩, above, -, -⟩ := opensWideGap_succ_iff.1 opens
      have inside := anchorAt_lt at_k
      exact ⟨j + 1, List.mem_filter.2 ⟨List.mem_range.2 (by omega), opens⟩, rfl⟩
  · rw [List.length_map]
    rfl

end

/-! ### Neighbours -/

theorem eligibleValue_eq_some_iff {c : CellRecord} {v : Int} : eligibleValue c = some v ↔
    c.value = some v ∧
      (c.quality = .measured ∨ c.quality = .substituted ∨ c.quality = .scanned ∨ c.quality = .interpolated) := by
  unfold eligibleValue
  cases c.quality <;> simp [Quality.atLeast, Quality.rank]

/-- Settles O38: each reading of the two nearest anchors, and the two roundings. -/
theorem fillStaysBetweenAnchors : Obligations.FillStaysBetweenAnchors := by
  unfold Obligations.FillStaysBetweenAnchors
  refine ⟨fun anchors e maxGap => ?fill, fun low high e below above => ?interpolated, fun c v => eligibleValue_eq_some_iff,
    fun s k t e d inside => ?neighbours, rfl, fun v w => ⟨rfl, rfl, _, rfl, ?mean⟩⟩
  case fill =>
    intro anchored bare below above noneBelow noneAbove wide
    refine ⟨fun j v => ⟨anchorBelow_eq_some_iff, anchorAbove_eq_some_iff⟩, fun j v k w low high => ?_,
      fun j v low none => ?_, fun k w none high => ?_, fun none none' => ?_, wideGaps_eq maxGap anchors⟩
    · simp only [filled, anchorBelow_eq_some_iff.2 low, anchorAbove_eq_some_iff.2 high, gapSize]
      exact ⟨fun near => if_pos near, fun far => if_neg (Nat.not_le.2 far)⟩
    · simp only [filled, anchorBelow_eq_some_iff.2 low, anchorAbove_eq_none none]
      exact ⟨fun near => if_pos near, fun far => if_neg (Nat.not_le.2 far)⟩
    · simp only [filled, anchorBelow_eq_none none, anchorAbove_eq_some_iff.2 high]
      exact ⟨fun near => if_pos near, fun far => if_neg (Nat.not_le.2 far)⟩
    · simp only [filled, anchorBelow_eq_none none, anchorAbove_eq_none none']
  case interpolated =>
    intro v span rise
    obtain ⟨near, tie⟩ := roundHalfAway_spec rise (d := span) (by omega)
    have moved : v - low.2 = roundHalfAway rise span := by
      show interpolated low high e - low.2 = _
      rw [interpolated, add_sub_cancel_left]
    rw [moved]
    exact ⟨(interpolated_between below above).1, (interpolated_between below above).2, by omega, by omega⟩
  case neighbours =>
    intro side
    unfold neighbourFill neighbourAt
    congr 1
    split
    · rfl
    · rw [if_pos (by omega)]
      rfl
  case mean =>
    obtain ⟨near, tie⟩ := roundHalfAway_spec (v + w) (d := 2) (by decide)
    obtain ⟨low, high⟩ := mean_between v w
    exact ⟨low, high, by omega, by omega⟩

end Sys2Proof.Machine

/-! ## The tube write of a tube step -/

namespace Sys2Proof.Machine

/-! ### Direct sources -/

section
variable {s : State} {k n : Nat} {d : Direct}

theorem usableValue_eq_some_iff {c : Channel} {v : Int} : c.usableValue = some v ↔
    c.state = .healthy ∧ ∃ g, c.lastGood = some g ∧ g.age ≤ 2 ∧ g.value = v := by
  unfold Channel.usableValue
  cases c.state <;> cases c.lastGood <;> simp

theorem clampMap_eq_max_min (v : Int) : clampMap v = max (-500) (min 12500 v) := clampInt_eq_max_min (by decide) v

theorem measuredSource_eq_some_iff : measuredSource s n = some d ↔
    ∃ channel v, Table.find s.cfg.primaries n = some channel ∧
      ((s.channel channel).state = .healthy ∧ ∃ g, (s.channel channel).lastGood = some g ∧ g.age ≤ 2 ∧ g.value = v) ∧
      d = { value := v, quality := .measured, source := channel } := by
  simp only [← usableValue_eq_some_iff]
  unfold measuredSource
  cases Table.find s.cfg.primaries n <;> simp [eq_comm]

theorem substitutedSource_eq_some_iff : substitutedSource s n = some d ↔
    ∃ x v, Table.find s.cfg.alternates n = some x ∧
      ((s.channel x.channel).state = .healthy ∧
        ∃ g, (s.channel x.channel).lastGood = some g ∧ g.age ≤ 2 ∧ g.value = v) ∧
      d = { value := max (-500) (min 12500 (v + x.offset)), quality := .substituted, source := x.channel } := by
  simp only [← usableValue_eq_some_iff, ← clampMap_eq_max_min]
  unfold substitutedSource
  cases Table.find s.cfg.alternates n <;> simp [eq_comm]

theorem scannedSource_eq_some_iff : scannedSource s k n = some d ↔
    ∃ x, Table.find s.scn.scans n = some x ∧ s.tmb.uptime - x.stamp ≤ s.cfg.parameters.scanAgeLimit ∧
      d = { value := max (-500) (min 12500 (x.temperature + (s.coilBias k).bias)), quality := .scanned, source := x.sight } := by
  simp only [← clampMap_eq_max_min]
  unfold scannedSource ScanRecord.withinAge ScanRecord.age
  cases Table.find s.scn.scans n <;> simp [eq_comm]

/-- The first of three sources that serves (R75). -/
theorem directSource_eq_some_iff : directSource s k n = some d ↔
    measuredSource s n = some d ∨ ((∀ x, measuredSource s n ≠ some x) ∧
      (substitutedSource s n = some d ∨ ((∀ x, substitutedSource s n ≠ some x) ∧ scannedSource s k n = some d))) := by
  unfold directSource
  cases measuredSource s n <;> cases substitutedSource s n <;> simp

/-- An elevation's anchor is the direct source of its cell (R75). -/
theorem anchorAt_tubeAnchors {dims : Dims} {t e : Nat} (inside : e < dims.elevations) :
    anchorAt (tubeAnchors s k dims t) e = directSource s k (cellNumber s.geometry k dims.elevations t e) := by
  unfold anchorAt tubeAnchors tubeCells
  rw [List.getElem?_map, List.getElem?_range' inside]
  simp [cellNumber]

theorem length_tubeAnchors (s : State) (k : Nat) (dims : Dims) (t : Nat) :
    (tubeAnchors s k dims t).length = dims.elevations := by
  simp [tubeAnchors, tubeCells]

end

/-! ### One cell's record, peak and accumulator -/

section
variable {s : State} {pass k t e : Nat} {dims : Dims} {anchors : List (Option Direct)}

theorem evaluateCell_direct {d : Direct} (h : anchorAt anchors e = some d) :
    evaluateCell s pass k dims t anchors e = freshRecord pass d.value d.quality (some d.source) := by
  simp only [evaluateCell, h]

theorem evaluateCell_filled {v : Int} {q : Quality} (bare : anchorAt anchors e = none)
    (h : filled s.cfg.parameters.maxGap anchors e = some (v, q)) :
    evaluateCell s pass k dims t anchors e = freshRecord pass v q none := by
  simp only [evaluateCell, bare, h]

theorem evaluateCell_neighbour {v : Int} (bare : anchorAt anchors e = none)
    (empty : filled s.cfg.parameters.maxGap anchors e = none) (h : neighbourFill s k dims t e = some v) :
    evaluateCell s pass k dims t anchors e = freshRecord pass v .neighbour none := by
  simp only [evaluateCell, bare, empty, h]

theorem evaluateCell_held (bare : anchorAt anchors e = none) (empty : filled s.cfg.parameters.maxGap anchors e = none)
    (alone : neighbourFill s k dims t e = none) : evaluateCell s pass k dims t anchors e =
      heldRecord s.cfg.parameters.holdLimit (s.cell (cellNumber s.geometry k dims.elevations t e)) := by
  simp only [evaluateCell, bare, empty, alone]

theorem heldRecord_empty {limit : Nat} {old : CellRecord} (h : old.value = none) : heldRecord limit old = .blank := by
  simp only [heldRecord, h]

theorem heldRecord_held {limit : Nat} {old : CellRecord} {v : Int} (h : old.value = some v) :
    heldRecord limit old =
      { value := some v, quality := if raise max8 old.heldAge ≤ limit then .held else .stale, source := none
        passStamp := old.passStamp, heldAge := raise max8 old.heldAge } := by
  simp only [heldRecord, h]

theorem peakAfter_replaced {old : Option Peak} {c : CellRecord} {v : Int} {clock : Nat} (value : c.value = some v)
    (rank : c.quality.atLeast 2 = true) (lower : ∀ x, old = some x → x.value < v) :
    peakAfter old c clock pass = some { value := v, stamp := clock, pass := pass } := by
  have passed : old.all (fun p => decide (p.value < v)) = true := by
    cases old with
    | none => rfl
    | some x => exact decide_eq_true (lower x rfl)
  simp only [peakAfter, value, rank, passed, Bool.and_self, if_true]

theorem peakAfter_stands {old : Option Peak} {c : CellRecord} {clock : Nat}
    (h : c.value = none ∨ c.quality.atLeast 2 = false ∨ ∃ v x, c.value = some v ∧ old = some x ∧ v ≤ x.value) :
    peakAfter old c clock pass = old := by
  unfold peakAfter
  split
  · rfl
  case h_2 v value =>
    rcases h with empty | low | ⟨w, x, value', rfl, lower⟩
    · exact nomatch empty.symm.trans value
    · simp [low]
    · cases value.symm.trans value'
      simp [Int.not_lt.2 lower]

end

/-! ### The cells of a tube -/

/-- A tube write over distinct cells leaves each with the part written for it (R74). -/
theorem foldl_writeCell_same (c : CoilDef) (pass : Nat) {xs : List (Nat × CellRecord)} (once : (xs.map Prod.fst).Nodup)
    {n : Nat} {r : CellRecord} (h : (n, r) ∈ xs) {s : State} (canonical : s.map.Canonical) :
    let t := xs.foldl (writeCell c pass) s
    t.cell n = r ∧ t.peak n = peakAfter (s.peak n) r s.tmb.heaterClock pass ∧
      t.accumulator n
        = exposureAfter (s.accumulator n) s.cfg.parameters.passPeriod (r.multiplier c.design c.step) := by
  induction xs generalizing s with
  | nil => cases h
  | cons x xs ih =>
    obtain ⟨fresh, once⟩ := List.nodup_cons.1 once
    rcases List.mem_cons.1 h with rfl | later
    · obtain ⟨cell, peak, accumulator⟩ := foldl_writeCell_other c pass
        (fun y hy same => fresh (List.mem_map.2 ⟨y, hy, same⟩)) (writeCell c pass s (n, r))
      refine ⟨cell.trans ?_, peak.trans ?_, accumulator.trans ?_⟩
      · exact (cell_writeCell canonical.1.1 c pass (n, r) n).trans (if_pos rfl)
      · exact (Table.find_set canonical.2.1 n _ n).trans (if_pos rfl)
      · exact (Table.get_put 0 canonical.2.2.1 n _ n).trans (if_pos rfl)
    · have other : x.1 ≠ n := fun same => fresh (List.mem_map.2 ⟨(n, r), later, same.symm⟩)
      obtain ⟨-, peak, accumulator⟩ := foldl_writeCell_other c pass (xs := [x]) (by simpa using other) s
      have written := ih once later (canonical.writeCell c pass x)
      rw [show (writeCell c pass s x).peak n = _ from peak, show (writeCell c pass s x).accumulator n = _ from accumulator]
        at written
      exact written

/-- What a tube write leaves at one elevation (R74). -/
theorem writeTube_same {s : State} (canonical : s.map.Canonical) (pass k : Nat) (c : CoilDef) (tube : Nat) {e : Nat}
    (inside : e < c.elevations) :
    let t := writeTube pass k c tube s
    let n := cellNumber s.geometry k c.elevations tube e
    let r := evaluateCell s pass k c.dims tube (tubeAnchors s k c.dims tube) e
    t.cell n = r ∧ t.peak n = peakAfter (s.peak n) r s.tmb.heaterClock pass ∧
      t.accumulator n
        = exposureAfter (s.accumulator n) s.cfg.parameters.passPeriod (r.multiplier c.design c.step) := by
  refine foldl_writeCell_same c pass ?_ ?_ canonical
  · rw [List.map_fst_zip]
    · exact List.nodup_range'
    · simp [tubeCells, evaluateTube, CoilDef.dims]
  · refine List.mem_of_getElem? (i := e) ?_
    rw [List.getElem?_zip_eq_some]
    refine ⟨?_, ?_⟩
    · rw [tubeCells, List.getElem?_range' inside]
      simp [cellNumber]
    · rw [evaluateTube, List.getElem?_map, List.getElem?_range (n := c.dims.elevations) inside]
      rfl

/-! ### The whole step -/

/-- A tube walked leaves its tube's write, and else the walk and the ends of the pass alone (R73, R84, R85). -/
structure Walked (s written t : State) : Prop where
  frame : t = { s with map := t.map, evt := t.evt }
  map : t.map = { s.map with
    cells := t.map.cells, peaks := t.map.peaks, exposure := t.map.exposure, pass := t.map.pass
    mapState := t.map.mapState, establishCount := t.map.establishCount
    lastCompleted := t.map.lastCompleted, lastPass := t.map.lastPass }
  cell : ∀ n, t.cell n = written.cell n
  peak : ∀ n, t.peak n = written.peak n
  accumulator : ∀ n, t.accumulator n = written.accumulator n

theorem walked_walkTube (p : Pass) (c : CoilDef) (s : State) :
    Walked s (writeTube p.number p.coil c p.tube s) (walkTube p c s) := by
  have frame := Effect.writeTube_frame p.number p.coil c p.tube s
  unfold walkTube
  dsimp only
  generalize writeTube p.number p.coil c p.tube s = written at *
  split
  · rw [frame]
    exact ⟨rfl, rfl, fun _ => rfl, fun _ => rfl, fun _ => rfl⟩
  · rw [completePass]
    split
    · rw [frame]
      exact ⟨rfl, rfl, fun _ => rfl, fun _ => rfl, fun _ => rfl⟩
    · rw [frame]
      exact ⟨rfl, rfl, fun _ => rfl, fun _ => rfl, fun _ => rfl⟩

/-- Settles O36: the anchors are the direct sources of the tube's cells, and each cell's part of the write is read off. -/
theorem tubeStepWritesTube : Obligations.TubeStepWritesTube := by
  unfold Obligations.TubeStepWritesTube
  intro s p c canonical passing walking free same coil anchors cellAt serves clamped primary alternate scan direct fresh
  have source {e : Nat} (inside : e < c.elevations) (d : Direct) : anchorAt anchors e = some d ↔ direct (cellAt e) d := by
    rw [anchorAt_tubeAnchors (dims := c.dims) inside, directSource_eq_some_iff, measuredSource_eq_some_iff,
      substitutedSource_eq_some_iff, scannedSource_eq_some_iff]
    simp only [ne_eq, measuredSource_eq_some_iff, substitutedSource_eq_some_iff]
    rfl
  have map : s.map.Canonical := ⟨canonical.cells, canonical.peaks, canonical.exposure⟩
  have walked := walked_walkTube p c s
  refine ⟨length_tubeAnchors .., fun e inside d => source inside d, walkTube p c s,
    congrArg Host.Outcome.next (tubeSteps_walks passing walking free same coil), walked.frame, walked.map,
    fun e inside => ?_, fun n out => ?_⟩
  · intro n old new fill neighbours credit
    obtain ⟨cell, peak, accumulator⟩ := writeTube_same map p.number p.coil c p.tube inside
    have new_eq : new = evaluateCell s p.number p.coil c.dims p.tube anchors e := (walked.cell n).trans cell
    have bare (h : ∀ d, ¬direct n d) : anchorAt anchors e = none := by
      by_contra some
      obtain ⟨d, hd⟩ := Option.ne_none_iff_exists'.1 some
      exact h d ((source inside d).1 hd)
    have peak_eq : (walkTube p c s).peak n = peakAfter (s.peak n) new s.tmb.heaterClock p.number := by
      rw [walked.peak, new_eq]
      exact peak
    have accumulator_eq : (walkTube p c s).accumulator n =
        exposureAfter (s.accumulator n) s.cfg.parameters.passPeriod (new.multiplier c.design c.step) := by
      rw [walked.accumulator, new_eq]
      exact accumulator
    refine ⟨new_eq, fun d hd => ?_, fun h => ⟨fun v q filled => ?_, fun v empty beside => ?_, fun empty alone => ⟨fun none => ?_,
      fun v value => ?_⟩⟩, ?_, fun v value rank lower => ?_, fun stands => ?_⟩
    · rw [new_eq, evaluateCell_direct ((source inside d).2 hd)]
      rfl
    · rw [new_eq, evaluateCell_filled (bare h) filled]
      rfl
    · rw [new_eq, evaluateCell_neighbour (bare h) empty beside]
      rfl
    · rw [new_eq, evaluateCell_held (bare h) empty alone]
      exact heldRecord_empty none
    · rw [new_eq, evaluateCell_held (bare h) empty alone]
      exact heldRecord_held value
    · have credited : s.cfg.parameters.passPeriod * new.multiplier c.design c.step = credit := by
        simp only [credit, CellRecord.multiplier]
        cases new.value <;> rfl
      rw [accumulator_eq, exposureAfter, credited]
    · rw [peak_eq, peakAfter_replaced value rank lower]
    · rw [peak_eq, peakAfter_stands stands]
  · have other : n ∉ tubeCells s.geometry p.coil c.elevations p.tube := by
      rw [mem_tubeCells]
      rintro ⟨e, inside, rfl⟩
      exact out e inside rfl
    obtain ⟨cell, peak, accumulator⟩ := writeTube_other p.number p.coil c p.tube other
    exact ⟨(walked.cell n).trans cell, (walked.peak n).trans peak, (walked.accumulator n).trans accumulator⟩

end Sys2Proof.Machine

/-! ## The tables of Latching and Repeating mode, and the conditions of a zone -/

namespace Sys2Proof.Machine

/-! ### The alarm tables -/

section
variable {z : Zone} {cond : CondSet} {r : AlarmRecord}

theorem nextOccurrence_eq (h : r.occurrence ≤ 65535) :
    nextOccurrence r.occurrence = if r.occurrence < 65535 then r.occurrence + 1 else 0 := by
  unfold nextOccurrence
  split <;> omega

theorem alarmStep_latching (h : z.mode = .latching) : alarmStep z cond r = latchingStep cond r := by
  simp only [alarmStep, h]

theorem alarmStep_repeating (h : z.mode = .repeating) :
    alarmStep z cond r = repeatingStep z.repeatInterval cond r := by
  simp only [alarmStep, h]

end

/-- Settles O44: the rows of each table are the branches of `latchingStep` and `repeatingStep`. -/
theorem alarmTablesFollowed : Obligations.AlarmTablesFollowed := by
  unfold Obligations.AlarmTablesFollowed
  intro z cond r event codes next normal raised raises stays hocc
  have hnext : nextOccurrence r.occurrence = next := nextOccurrence_eq hocc
  have hraised : r.raiseNew cond = raised := by
    simp only [AlarmRecord.raiseNew, hnext, AckSet.empty, raised]
  have hevent : some (raisedEvent raised) = event .alarmRaised (next + codes) := rfl
  refine ⟨fun hm => ?_, fun hm => ?_⟩
  · have hstep : alarmStep z cond r = latchingStep cond r := alarmStep_latching hm
    have hnew : latchingStep cond r = (r.raiseNew cond, some (raisedEvent (r.raiseNew cond))) → raises := fun h => by
      rw [hraised, hevent] at h
      exact hstep.trans h
    refine ⟨fun hs => ⟨fun hc => hstep.trans ?_, fun hc => hnew ?_⟩,
      fun hs => ⟨fun hc => hstep.trans ?_, fun hc => hstep.trans ?_⟩,
      fun hs => ⟨fun hc => hstep.trans ?_, fun hc hk => hstep.trans ?_, fun hk => hnew ?_⟩,
      fun hs => ⟨fun hc => hstep.trans ?_, fun hc => hnew ?_⟩⟩
    · simp only [latchingStep, hs, hc, if_true]
    · simp only [latchingStep, hs, hc, if_false]
    · simp only [latchingStep, hs, hc, if_false]
    · simp only [latchingStep, hs, hc, if_true, event, alarmDetail, Nat.cast_one, mul_one]
    · simp [latchingStep, hs, hc, event, alarmDetail, normal, AlarmRecord.toNormal, AlarmRecord.reset]
    · simp only [latchingStep, hs, hc, hk, if_true, if_false]
    · have hc : cond ≠ 0 := fun h => hk (by rw [h]; exact BitVec.zero_and)
      simp only [latchingStep, hs, hc, hk, if_false]
    · simp only [latchingStep, hs, hc, if_true]
    · simp only [latchingStep, hs, hc, if_false]
  · have hstep : alarmStep z cond r = repeatingStep z.repeatInterval cond r := alarmStep_repeating hm
    refine ⟨fun hs => ⟨fun hc => hstep.trans ?_, fun hc => hstep.trans ?_⟩,
      fun hs => ⟨fun hc => hstep.trans ?_, fun hc hk => hstep.trans ?_, fun hc hk => hstep.trans ?_⟩⟩
    · simp only [repeatingStep, hs, hc, if_true]
    · simp only [repeatingStep, hs, hc, if_false, hnext, event, repeatEvent, alarmDetail, codes]
    · simp [repeatingStep, hs, hc, event, alarmDetail, normal, AlarmRecord.toNormal, AlarmRecord.reset]
    · simp only [repeatingStep, hs, hc, if_false, Nat.not_le.2 hk]
    · simp only [repeatingStep, hs, hc, if_false, hk, if_true, event, repeatEvent, alarmDetail, codes]

/-! ### The five conditions -/

theorem limitHolds_some {held : Bool} {limit v : Int} {deadband : Nat} :
    limitHolds held limit deadband (some v) = true ↔
      (held = false ∧ limit < v) ∨ (held = true ∧ limit - deadband < v) := by
  cases held <;> simp [limitHolds]

theorem spreadHolds_some {held : Bool} {limit deadband trusted : Nat} {hi lo : Int} :
    spreadHolds held limit deadband trusted (some hi) (some lo) = true ↔
      2 ≤ trusted ∧ ((held = false ∧ limit < hi - lo) ∨ (held = true ∧ (limit : Int) - deadband < hi - lo)) := by
  cases held <;> simp [spreadHolds]

theorem baseEntry_of_short {window : List RateEntry} {w : Nat} (h : window.length < w) : baseEntry window w = none :=
  if_neg (Nat.not_le.2 h)

/-- The base entry stands with `w - 1` newer ones behind it. -/
theorem baseEntry_append {older newer : List RateEntry} {base : RateEntry} :
    baseEntry (older ++ base :: newer) (newer.length + 1) = some base := by
  have hlength : (older ++ base :: newer).length - (newer.length + 1) = older.length := by simp
  rw [baseEntry, if_pos (by simp), hlength]
  simp

theorem rateOf_of_baseEntry_none {window : List RateEntry} {w endUptime : Nat} {v : Option Int}
    (h : baseEntry window w = none) : rateOf window w v endUptime = none := by
  unfold rateOf
  rw [h]

theorem rateOf_none (window : List RateEntry) (w endUptime : Nat) : rateOf window w none endUptime = none := by
  unfold rateOf
  cases baseEntry window w <;> rfl

theorem rateOf_of_base {window : List RateEntry} {w endUptime : Nat} {v : Int} {base : RateEntry}
    (h : baseEntry window w = some base) : rateOf window w (some v) endUptime =
      base.maximum.bind fun u =>
        if base.endUptime < endUptime then some (truncated ((v - u) * 60) (endUptime - base.endUptime : Nat)) else none := by
  unfold rateOf
  rw [h]
  cases hmax : base.maximum <;> simp only [hmax] <;> rfl

/-- Truncation toward zero: a quotient of the sign of the dividend, not larger in size, and less than one short. -/
theorem truncated_toward_zero (n : Int) {d : Nat} (hd : 0 < d) :
    (truncated n d * d).natAbs ≤ n.natAbs ∧ (n - truncated n d * d).natAbs < d ∧ 0 ≤ truncated n d * n := by
  have hsplit : truncated n d * d + Int.tmod n d = n := by
    rw [mul_comm]
    exact Int.mul_tdiv_add_tmod n d
  have hrest : (Int.tmod n d).natAbs < d := by
    rw [Int.natAbs_tmod]
    exact Nat.mod_lt _ hd
  have hsize : (truncated n d * d).natAbs = n.natAbs / d * d := by
    rw [truncated, Int.natAbs_mul, Int.natAbs_tdiv]
    rfl
  have hless : n.natAbs / d * d ≤ n.natAbs := Nat.div_mul_le_self ..
  obtain ⟨up, down, -⟩ := truncated_spec n hd
  refine ⟨by omega, by rwa [← eq_sub_of_add_eq' hsplit], ?_⟩
  rcases le_total 0 n with h | h
  · exact mul_nonneg (up h).1 h
  · exact mul_nonneg_of_nonpos_of_nonpos (down h).2 h

/-- Of five bits that are each set under its own condition, one holds exactly under its own. -/
theorem judged_iff (enabled : CondSet) (high highHigh spread rate quality : Bool) :
    let judged := enabled &&& (condIf condHigh high ||| condIf condHighHigh highHigh ||| condIf condSpread spread
      ||| condIf condRate rate ||| condIf condQuality quality)
    (judged &&& 1 ≠ 0 ↔ enabled &&& 1 ≠ 0 ∧ high = true) ∧
    (judged &&& 2 ≠ 0 ↔ enabled &&& 2 ≠ 0 ∧ highHigh = true) ∧
    (judged &&& 4 ≠ 0 ↔ enabled &&& 4 ≠ 0 ∧ spread = true) ∧
    (judged &&& 8 ≠ 0 ↔ enabled &&& 8 ≠ 0 ∧ rate = true) ∧
    (judged &&& 16 ≠ 0 ↔ enabled &&& 16 ≠ 0 ∧ quality = true) := by
  revert enabled high highHigh spread rate quality
  decide

/-- Settles O45: each condition by its own rule, the rate from the entry `w` places back. -/
theorem zoneConditionsJudged : Obligations.ZoneConditionsJudged := by
  unfold Obligations.ZoneConditionsJudged
  refine ⟨fun held limit deadband => ⟨rfl, fun v => limitHolds_some⟩,
    fun held limit deadband trusted hi lo => ⟨rfl, spreadHolds_some⟩, fun window w endUptime v hw => ?_,
    fun limit r => ⟨rfl, decide_eq_true_iff⟩, fun z before f => ?_⟩
  · refine ⟨fun h => rateOf_of_baseEntry_none (baseEntry_of_short h), rateOf_none .., ?_⟩
    rintro older base newer rfl rfl
    rw [rateOf_of_base baseEntry_append]
    refine ⟨fun h => ?_, fun u hu hlater => ?_⟩
    · rcases h with h | h
      · rw [h]
        rfl
      · cases base.maximum with
        | none => rfl
        | some u => exact if_neg (Nat.not_lt.2 h)
    · obtain ⟨hle, hrest, hsign⟩ := truncated_toward_zero ((v - u) * 60) (Nat.sub_pos_of_lt hlater)
      refine ⟨_, by rw [hu, Option.bind_some, if_pos hlater], ?_⟩
      have htime : ((endUptime - base.endUptime : Nat) : Int) = (endUptime : Int) - base.endUptime := by omega
      rw [htime] at hle hrest hsign ⊢
      exact ⟨hle, by omega, by nlinarith⟩
  · obtain ⟨h1, h2, h4, h8, h16⟩ := judged_iff z.enabled
      (limitHolds (hasCond before condHigh) z.highLimit z.deadband f.maximum)
      (limitHolds (hasCond before condHighHigh) z.highHighLimit z.deadband f.maximum)
      (spreadHolds (hasCond before condSpread) z.spreadLimit z.deadband f.trusted f.maximum f.minimum)
      (rateHolds z.rateLimit f.rate) (decide (z.qualityCount < f.lowQuality))
    exact ⟨h1, h2, h4, h8, h16.trans (and_congr_right fun _ => decide_eq_true_iff)⟩

end Sys2Proof.Machine

/-! ## The evaluation of a completed pass -/

namespace Sys2Proof.Machine

/-! ### The figures of a zone -/

theorem highest_eq_some_iff {vs : List Int} {v : Int} : highest vs = some v ↔ v ∈ vs ∧ ∀ w ∈ vs, w ≤ v := by
  rw [← List.max?_eq_some_iff]
  cases vs <;> rfl

theorem lowest_eq_some_iff {vs : List Int} {v : Int} : lowest vs = some v ↔ v ∈ vs ∧ ∀ w ∈ vs, v ≤ w := by
  rw [← List.min?_eq_some_iff]
  cases vs <;> rfl

theorem zoneCells_eq_zoneList (s : State) (z : Zone) : zoneCells s z = zoneList s z := by
  unfold zoneCells zoneList
  cases hc : s.coil z.coil with
  | none => rfl
  | some c =>
    refine List.flatMap_congr fun t _ => ?_
    exact List.ext_getElem (by simp [Zone.elevationSpan]) fun i _ _ => by simp [cellNumber, Nat.add_assoc]

theorem mem_trustedValues {s : State} {cells : List Nat} {v : Int} : v ∈ trustedValues s cells ↔
    ∃ n ∈ cells, (s.cell n).value = some v ∧ (s.cell n).quality.atLeast 2 = true := by
  simp only [trustedValues, List.mem_filterMap]
  refine exists_congr fun n => and_congr_right fun _ => ?_
  split
  next h => simp [h]
  next h => simp [h]

/-- A cell is trusted whose quality code lies from 2 to 7 (R14, R176). -/
theorem atLeast_two_iff (q : Quality) : q.atLeast 2 = true ↔ 2 ≤ qualityCode q ∧ qualityCode q ≤ 7 := by
  cases q <;> decide

theorem not_atLeast_iff (q : Quality) (floor : Nat) :
    q.atLeast floor = false ↔ q = .empty ∨ qualityCode q < floor := by
  cases q <;> simp [Quality.atLeast, Quality.rank, qualityCode]

theorem length_trustedValues (s : State) (cells : List Nat) : (trustedValues s cells).length =
    ((cells.map s.cell).filter fun c =>
      decide (2 ≤ qualityCode c.quality ∧ qualityCode c.quality ≤ 7 ∧ c.value.isSome = true)).length := by
  induction cells with
  | nil => rfl
  | cons n cells ih =>
    simp only [trustedValues, List.map_cons, List.filterMap_cons, List.filter_cons, ← and_assoc,
      ← atLeast_two_iff] at ih ⊢
    by_cases hq : (s.cell n).quality.atLeast 2 = true <;> cases hv : (s.cell n).value <;> simpa [hq, hv] using ih

theorem lowQualityCount_eq (s : State) (floor : Nat) (cells : List Nat) : lowQualityCount s floor cells =
    ((cells.map s.cell).filter fun c => decide (c.quality = .empty ∨ qualityCode c.quality < floor)).length := by
  rw [lowQualityCount, List.filter_map, List.length_map]
  refine congrArg List.length (List.filter_congr fun n _ => ?_)
  rw [Bool.eq_iff_iff, Bool.not_eq_true', not_atLeast_iff, Function.comp_apply, decide_eq_true_iff]

/-! ### One zone -/

/-- What an evaluation makes of a zone's record, and its event (R125, step 1). -/
def zoneMoved (pass endUptime : Nat) (s : State) (x : Nat × Zone) : Evaluated :=
  alarmStep x.2 (judgeConditions x.2 (s.alarm x.1).conditions (zoneFigures s x.1 x.2 pass endUptime)) (s.alarm x.1)

/-- The event of a zone's update (R125, R137). -/
def zoneNote (pass endUptime : Nat) (s : State) (x : Nat × Zone) : Option Note :=
  (zoneMoved pass endUptime s x).2.map fun y => { kind := y.1, subject := x.1, detail := y.2 }

/-- The two states agree in what an evaluation of zone `n` reads. -/
def ZoneAgrees (s t : State) (n : Nat) : Prop :=
  t.alarm n = s.alarm n ∧ t.window n = s.window n ∧ Table.find t.alm.figures n = Table.find s.alm.figures n ∧
    t.map = s.map ∧ t.cfg = s.cfg

section
variable {pass endUptime : Nat} {s t : State} {x : Nat × Zone} {n : Nat}

theorem ZoneAgrees.figures (h : ZoneAgrees s t n) (z : Zone) :
    zoneFigures t n z pass endUptime = zoneFigures s n z pass endUptime := by
  obtain ⟨-, window, -, map, cfg⟩ := h
  have hcells : zoneCells t z = zoneCells s z := by simp only [zoneCells, State.coil, State.geometry, cfg]
  have hcell : t.cell = s.cell := funext fun n => by rw [State.cell, map, State.cell]
  simp only [zoneFigures, hcells, trustedValues, lowQualityCount, hcell, window]

theorem ZoneAgrees.moved (h : ZoneAgrees s t x.1) : zoneMoved pass endUptime t x = zoneMoved pass endUptime s x := by
  rw [zoneMoved, h.figures, h.1, zoneMoved]

theorem evaluateZone_alm (pass endUptime : Nat) (s : State) (x : Nat × Zone) :
    (evaluateZone pass endUptime s x).alm =
      { s.alm with
        records := Table.put .reset s.alm.records x.1 (zoneMoved pass endUptime s x).1
        figures := Table.insert s.alm.figures x.1 (zoneFigures s x.1 x.2 pass endUptime)
        windows := Table.insert s.alm.windows x.1
          (pushWindow (s.window x.1)
            { pass := pass, maximum := (zoneFigures s x.1 x.2 pass endUptime).maximum, endUptime := endUptime }) } := by
  unfold evaluateZone zoneMoved
  dsimp only
  split <;> rfl

theorem evaluateZone_evt_eq (pass endUptime : Nat) (s : State) (x : Nat × Zone) :
    (evaluateZone pass endUptime s x).evt = (appendEvents s (zoneNote pass endUptime s x).toList).evt := by
  unfold evaluateZone zoneNote zoneMoved
  dsimp only
  split
  next h => rw [h]; rfl
  next y h => rw [h]; rfl

theorem evaluateZone_other (h : n ≠ x.1) : ZoneAgrees s (evaluateZone pass endUptime s x) n := by
  refine ⟨?_, ?_, ?_, by rw [evaluateZone_frame]; rfl, by rw [evaluateZone_frame]; rfl⟩
  · rw [State.alarm, evaluateZone_alm]
    exact Table.get_put_ne _ _ _ h
  · rw [State.window, evaluateZone_alm, Table.get, Table.find_insert, if_neg h]
    rfl
  · rw [evaluateZone_alm, Table.find_insert, if_neg h]

/-- What an evaluation leaves of a zone it judges (R125, R128). -/
def ZoneJudged (pass endUptime : Nat) (s t : State) (x : Nat × Zone) : Prop :=
  t.alarm x.1 = (zoneMoved pass endUptime s x).1 ∧
    Table.find t.alm.figures x.1 = some (zoneFigures s x.1 x.2 pass endUptime) ∧
    t.window x.1 = pushWindow (s.window x.1)
      { pass := pass, maximum := (zoneFigures s x.1 x.2 pass endUptime).maximum, endUptime := endUptime }

theorem evaluateZone_same (h : Table.rising s.alm.records = true) :
    ZoneJudged pass endUptime s (evaluateZone pass endUptime s x) x := by
  refine ⟨?_, ?_, ?_⟩
  · rw [evaluateZone_alarm h, if_pos rfl]
    rfl
  · rw [evaluateZone_alm, Table.find_insert, if_pos rfl]
  · rw [State.window, evaluateZone_alm, Table.get, Table.find_insert, if_pos rfl]
    rfl

/-! ### All zones -/

theorem ZoneAgrees.trans {u : State} (hst : ZoneAgrees s t n) (htu : ZoneAgrees t u n) : ZoneAgrees s u n := by
  obtain ⟨alarm, window, figures, map, cfg⟩ := hst
  obtain ⟨alarm', window', figures', map', cfg'⟩ := htu
  exact ⟨alarm'.trans alarm, window'.trans window, figures'.trans figures, map'.trans map, cfg'.trans cfg⟩

theorem foldl_evaluateZone_other {zones : Table Zone} (h : ∀ x ∈ zones, n ≠ x.1) :
    ZoneAgrees s (zones.foldl (evaluateZone pass endUptime) s) n := by
  induction zones generalizing s with
  | nil => exact ⟨rfl, rfl, rfl, rfl, rfl⟩
  | cons x zones ih =>
    have hx : ZoneAgrees s (evaluateZone pass endUptime s x) n := evaluateZone_other (h x List.mem_cons_self)
    exact hx.trans (ih fun y hy => h y (List.mem_cons_of_mem x hy))

theorem foldl_evaluateZone_same {zones : Table Zone} (hz : Table.rising zones = true) (hs : s.alm.Canonical)
    (hx : x ∈ zones) : ZoneJudged pass endUptime s (zones.foldl (evaluateZone pass endUptime) s) x := by
  induction zones generalizing s with
  | nil => exact absurd hx List.not_mem_nil
  | cons y zones ih =>
    obtain ⟨below, rises⟩ := (Table.rising_cons y.1 y.2 zones).1 hz
    rw [List.foldl_cons]
    rcases List.mem_cons.1 hx with rfl | hmem
    · obtain ⟨alarm, window, figures, -⟩ : ZoneAgrees _ _ x.1 :=
        foldl_evaluateZone_other (s := evaluateZone pass endUptime s x) (pass := pass) (endUptime := endUptime)
          fun y hy => Nat.ne_of_lt (below y hy)
      obtain ⟨record, figure, pushed⟩ : ZoneJudged pass endUptime s _ x := evaluateZone_same hs.2.1.1
      exact ⟨alarm.trans record, figures.trans figure, window.trans pushed⟩
    · have hagrees : ZoneAgrees s (evaluateZone pass endUptime s y) x.1 :=
        evaluateZone_other (Nat.ne_of_gt (below x hmem))
      obtain ⟨record, figure, pushed⟩ := ih rises (hs.evaluateZone pass endUptime y) hmem
      rw [hagrees.moved] at record
      rw [hagrees.figures] at figure pushed
      rw [hagrees.2.1] at pushed
      exact ⟨record, figure, pushed⟩

theorem foldl_evaluateZone_evt {zones : Table Zone} (hz : Table.rising zones = true) :
    (zones.foldl (evaluateZone pass endUptime) s).evt =
      (appendEvents s (zones.filterMap (zoneNote pass endUptime s))).evt := by
  induction zones generalizing s with
  | nil => rfl
  | cons x zones ih =>
    obtain ⟨below, rises⟩ := (Table.rising_cons x.1 x.2 zones).1 hz
    have hnotes : zones.filterMap (zoneNote pass endUptime (evaluateZone pass endUptime s x)) =
        zones.filterMap (zoneNote pass endUptime s) :=
      List.filterMap_congr fun y hy => by
        rw [zoneNote, (evaluateZone_other (Nat.ne_of_gt (below y hy))).moved, zoneNote]
    have hcons : (x :: zones).filterMap (zoneNote pass endUptime s) =
        (zoneNote pass endUptime s x).toList ++ zones.filterMap (zoneNote pass endUptime s) := by
      rw [List.filterMap_cons]
      cases zoneNote pass endUptime s x <;> rfl
    rw [List.foldl_cons, ih rises, hnotes, hcons, appendEvents_append]
    refine appendEvents_evt_congr _ (evaluateZone_evt_eq ..) ?_
    rw [evaluateZone_frame, appendEvents_tmb]
    rfl

end

/-! ### The limit output -/

theorem limitCalled_iff {s : State} (h : Table.rising s.alm.zones = true) : limitCalled s = true ↔
    s.map.mapState = .mapping ∧ ∃ n z, s.zone n = some z ∧ z.enabled &&& condHighHigh ≠ 0 ∧
      (s.alarm n).conditions &&& condHighHigh ≠ 0 := by
  simp only [limitCalled, State.established, hasCond, Bool.and_eq_true, decide_eq_true_iff, List.any_eq_true,
    Prod.exists, State.zone, Table.find_eq_some_iff h]

/-! ### The obligation -/

/-- The values of rank 2 or above in a zone's ranges (R125, R126). -/
theorem mem_trustedValues_zoneCells {s : State} {z : Zone} {v : Int} : v ∈ trustedValues s (zoneCells s z) ↔
    ∃ c u e, s.coil z.coil = some c ∧ z.lowTube ≤ u ∧ u ≤ z.highTube ∧ z.lowElevation ≤ e ∧ e ≤ z.highElevation ∧
      (s.cell (cellNumber s.geometry z.coil c.elevations u e)).value = some v ∧
      (s.cell (cellNumber s.geometry z.coil c.elevations u e)).quality.atLeast 2 = true := by
  rw [mem_trustedValues]
  cases hc : s.coil z.coil with
  | none => simp [zoneCells, hc]
  | some c =>
    constructor
    · rintro ⟨n, hn, hv, hq⟩
      obtain ⟨u, e, ⟨hu, hu'⟩, ⟨he, he'⟩, rfl⟩ := (mem_zoneCells hc n).1 hn
      exact ⟨c, u, e, rfl, hu, hu', he, he', hv, hq⟩
    · rintro ⟨_, u, e, ⟨⟩, hu, hu', he, he', hv, hq⟩
      exact ⟨_, (mem_zoneCells hc _).2 ⟨u, e, ⟨hu, hu'⟩, ⟨he, he'⟩, rfl⟩, hv, hq⟩

theorem pushWindow_eq (window : List RateEntry) (x : RateEntry) :
    pushWindow window x = (if window.length < 16 then window else window.tail) ++ [x] := by
  rw [pushWindow, List.drop_one, windowPlaces]

/-- Settles O46: the zones, each on its own, in ascending number; then the limit output and the hot tube list. -/
theorem evaluationJudgesEveryZone : Obligations.EvaluationJudgesEveryZone := by
  unfold Obligations.EvaluationJudgesEveryZone
  intro s pass endUptime hs t figures moved trusted
  have halm : s.alm.Canonical := ((tablesCanonical_iff s).1 hs).alm
  have hlisted (n : Nat) (z : Zone) (v : Int) : v ∈ trustedValues s (zoneCells s z) ↔ trusted z v :=
    mem_trustedValues_zoneCells
  have hzones : t.alm.zones = s.alm.zones := evaluatePass_zones pass endUptime s
  have hframe : t = (s.withAlm t.alm).withEvt t.evt := evaluatePass_frame pass endUptime s
  have hmap : t.map = s.map := by rw [hframe]; rfl
  refine ⟨fun n z v => ⟨?_, ?_⟩, fun n z => ⟨?_, ?_, rfl, rfl⟩, evaluatePass_frame pass endUptime s, hzones,
    fun n z hz => ?_, fun n hn => ?_, foldl_evaluateZone_evt hs.zones, ?_, evaluatePass_hotList pass endUptime s, rfl⟩
  · simp only [← hlisted n]
    exact highest_eq_some_iff
  · simp only [← hlisted n]
    exact lowest_eq_some_iff
  · rw [← zoneCells_eq_zoneList]
    exact length_trustedValues s _
  · rw [← zoneCells_eq_zoneList]
    exact lowQualityCount_eq s _ _
  · have judged : ZoneJudged pass endUptime s _ (n, z) :=
      foldl_evaluateZone_same hs.zones halm (Table.find_mem hz)
    obtain ⟨record, figure, pushed⟩ := judged
    exact ⟨record, figure, pushed.trans (pushWindow_eq _ _)⟩
  · have still : ZoneAgrees s (s.alm.zones.foldl (evaluateZone pass endUptime) s) n :=
      foldl_evaluateZone_other fun x hx hnx => by
        have := Table.find_isSome_of_mem hx
        rw [← hnx] at this
        exact absurd hn (Option.isSome_iff_ne_none.1 this)
    obtain ⟨record, window, figure, -⟩ := still
    exact ⟨record, window, figure⟩
  · have hlimit : t.alm.limitOutput = limitCalled (s.alm.zones.foldl (evaluateZone pass endUptime) s) := rfl
    have hcalled : limitCalled (s.alm.zones.foldl (evaluateZone pass endUptime) s) = limitCalled t :=
      limitCalled_congr rfl rfl fun _ => rfl
    rw [hlimit, hcalled, limitCalled_iff (hzones.symm ▸ hs.zones), hmap]
    simp only [State.zone, hzones]

end Sys2Proof.Machine

/-! ## Acknowledgements and zone edits -/

namespace Sys2Proof.Machine

/-! ### Acknowledge -/

section
variable {s : State} {l : Link} {zone occurrence : Nat} {z : Zone}

/-- Acknowledge from Link A or B passes the Link Controller's checks (R167). -/
theorem exec_acknowledge_of_answer {t : State} {tag : Byte} {r : Result} {p : List Byte} (hs : Free s l) (hl : l ≠ .e)
    (h : ownAcknowledge l zone occurrence s = (t, .now r p)) :
    exec (.acknowledge l tag zone occurrence) s = .next (replied t l tag 0x24 r p) := by
  have passed : linkRefusal s l acknowledgeCode = none := by
    simp [linkRefusal, hl, show commandKnown acknowledgeCode = true from rfl,
      show commandNeedsRights acknowledgeCode = false from rfl]
  exact congrArg Host.Outcome.next (serve_now hs passed h)

theorem ownAcknowledge_above (h : 31 < zone) : ownAcknowledge l zone occurrence s = (s, .now .badArgument []) :=
  if_pos h

theorem ownAcknowledge_undefined (h : zone ≤ 31) (hz : s.zone zone = none) :
    ownAcknowledge l zone occurrence s = (s, .now .notConfigured []) := by
  rw [ownAcknowledge, if_neg (Nat.not_lt.2 h), hz]
  rfl

theorem ownAcknowledge_defined (h : zone ≤ 31) (hz : s.zone zone = some z) :
    ownAcknowledge l zone occurrence s =
      if z.mode = .repeating ∨ (s.alarm zone).state = .normal then (s, .now .nothingToAck (ackPayload (s.alarm zone)))
      else if occurrence ≠ (s.alarm zone).occurrence then (s, .now .staleOccurrence (ackPayload (s.alarm zone)))
      else (takeAck l zone z s, .now .ok (ackPayload ((takeAck l zone z s).alarm zone))) := by
  rw [ownAcknowledge, if_neg (Nat.not_lt.2 h), hz]

/-- A taken acknowledgement stores the record moved, and reports a completed policy (R134). -/
theorem takeAck_eq (l : Link) (n : Nat) (z : Zone) (s : State) :
    let x := ackRecord z.ackPolicy l (s.alarm n)
    let t := s.withAlm { s.alm with records := Table.put .reset s.alm.records n x.1 }
    takeAck l n z s =
      if x.2 then
        appendEvent t
          { kind := .alarmAcked, subject := n, detail := alarmDetail (s.alarm n).occurrence (linkNumber l + 1) }
      else t := rfl

theorem takeAck_alarm (h : Table.rising s.alm.records = true) (n : Nat) :
    (takeAck l n z s).alarm n = (ackRecord z.ackPolicy l (s.alarm n)).1 := by
  have stored : Table.get .reset (Table.put .reset s.alm.records n (ackRecord z.ackPolicy l (s.alarm n)).1) n =
      (ackRecord z.ackPolicy l (s.alarm n)).1 := by
    rw [Table.get_put _ h, if_pos rfl]
  rw [takeAck_eq]
  split <;> exact stored

end

section
variable {policy : AckPolicy} {l : Link} {r : AlarmRecord}

theorem ackRecord_activeUnacked (hs : r.state = .activeUnacked) (hp : policyComplete policy (r.acks.add l) = true) :
    ackRecord policy l r = ({ r with state := .activeAcked, acks := r.acks.add l, acknowledged := r.raised }, true) := by
  simp [ackRecord, hs, hp]

theorem ackRecord_clearedUnacked (hs : r.state = .clearedUnacked) (hp : policyComplete policy (r.acks.add l) = true) :
    ackRecord policy l r = (r.toNormal, true) := by
  simp [ackRecord, hs, hp]

theorem ackRecord_activeAcked (hs : r.state = .activeAcked) :
    ackRecord policy l r = ({ r with acks := r.acks.add l }, false) := by
  simp [ackRecord, hs]

theorem ackRecord_incomplete (hp : policyComplete policy (r.acks.add l) = false) :
    ackRecord policy l r = ({ r with acks := r.acks.add l }, false) := by
  simp only [ackRecord, hp]
  cases r.state <;> rfl

theorem AckSet.add_eq (x : AckSet) (h : l ≠ .e) :
    x.add l = { a := x.a || decide (l = .a), b := x.b || decide (l = .b) } := by
  cases l <;> simp [AckSet.add] at h ⊢

/-- The code of an AlarmAcked's detail names the link (R137). -/
theorem alarmDetail_link (h : l ≠ .e) (n : Nat) :
    alarmDetail n (linkNumber l + 1) = (n : Int) + 65536 * if l = .a then 1 else 2 := by
  cases l <;> simp [alarmDetail, linkNumber] at h ⊢

end

/-- Settles O48: the checks in their order, then the record of a taken acknowledgement by its state and policy. -/
theorem acknowledgeByRecord : Obligations.AcknowledgeByRecord := by
  unfold Obligations.AcknowledgeByRecord
  intro s l tag zone occurrence hs r sent answer stored acked acks normal
  refine ⟨fun hl => ?_, fun hl h => exec_acknowledge_of_answer hs hl (ownAcknowledge_above h),
    fun hl h hz => exec_acknowledge_of_answer hs hl (ownAcknowledge_undefined h hz), fun hl h z hz => ?_⟩
  · subst hl
    exact congrArg Host.Outcome.next (serve_refused hs rfl)
  · intro complete
    have hacks : r.acks.add l = acks := AckSet.add_eq _ hl
    have hcomplete : policyComplete z.ackPolicy (r.acks.add l) = true ↔ complete := by
      simp only [hacks, complete]
      cases z.ackPolicy <;> simp [policyComplete]
    refine ⟨fun hn => exec_acknowledge_of_answer hs hl ?_, fun hm hn ho => exec_acknowledge_of_answer hs hl ?_,
      fun canonical hm ho => ?_⟩
    · exact (ownAcknowledge_defined h hz).trans (if_pos hn)
    · refine (ownAcknowledge_defined h hz).trans ((if_neg ?_).trans (if_pos ho))
      simp [hm, show (s.alarm zone).state ≠ .normal from hn]
    · have taken (x : AlarmRecord × Bool) (hx : ackRecord z.ackPolicy l r = x) (hn : r.state ≠ .normal) :
          sent = answer (if x.2 then acked x.1 else stored x.1) .ok x.1 := by
        subst hx
        refine exec_acknowledge_of_answer hs hl ?_
        rw [ownAcknowledge_defined h hz, if_neg (by simp [hm, show (s.alarm zone).state ≠ .normal from hn]),
          if_neg (not_not.2 ho), takeAck_alarm canonical.records.1, takeAck_eq, alarmDetail_link hl]
        rfl
      refine ⟨fun hstate hc => ?_, fun hstate hc => ?_, fun hrest => ?_⟩
      · have := taken _ (ackRecord_activeUnacked hstate (hcomplete.2 hc)) (by simp [hstate])
        rw [hacks] at this
        exact this
      · exact taken _ (ackRecord_clearedUnacked hstate (hcomplete.2 hc)) (by simp [hstate])
      · have hrecord : ackRecord z.ackPolicy l r = ({ r with acks := acks }, false) := by
          rw [← hacks]
          rcases hrest with hstate | ⟨-, hc⟩
          · exact ackRecord_activeAcked hstate
          · exact ackRecord_incomplete (Bool.eq_false_iff.2 (mt hcomplete.1 hc))
        refine taken _ hrecord ?_
        rcases hrest with hstate | ⟨hstate | hstate, -⟩ <;> simp [hstate]

/-! ### Zone edits -/

section
variable {s : State} {n zone : Nat}

theorem applyZone_frame (n : Nat) (z : Option Zone) (s : State) :
    let t := applyZone n z s
    t = s.withAlm { t.alm with hotList := s.alm.hotList, hotPass := s.alm.hotPass } := rfl

theorem applyZone_zone (h : Table.rising s.alm.zones = true) (n : Nat) (z : Option Zone) (m : Nat) :
    (applyZone n z s).zone m = if m = n then z else s.zone m := Table.find_set h n z m

theorem applyZone_alarm (h : Table.rising s.alm.records = true) (n : Nat) (z : Option Zone) (m : Nat) :
    (applyZone n z s).alarm m = if m = n then (s.alarm m).toNormal else s.alarm m := by
  have stored : (applyZone n z s).alarm m = if m = n then (s.alarm n).toNormal else s.alarm m :=
    Table.get_put AlarmRecord.reset h n _ m
  rw [stored]
  by_cases hm : m = n
  · rw [if_pos hm, if_pos hm, hm]
  · rw [if_neg hm, if_neg hm]

theorem applyZone_window (h : Table.rising s.alm.windows = true) (n : Nat) (z : Option Zone) (m : Nat) :
    (applyZone n z s).window m = if m = n then [] else s.window m := by
  have erased : (applyZone n z s).window m = (Table.find (Table.erase s.alm.windows n) m).getD [] := rfl
  rw [erased, Table.find_erase h]
  split <;> rfl

theorem applyZone_figures (h : Table.rising s.alm.figures = true) (n : Nat) (z : Option Zone) (m : Nat) :
    Table.find (applyZone n z s).alm.figures m = if m = n then none else Table.find s.alm.figures m :=
  Table.find_erase h n m

theorem applyZone_limitOutput (h : Table.rising s.alm.zones = true) (n : Nat) (z : Option Zone) :
    (applyZone n z s).alm.limitOutput = true ↔
      s.map.mapState = .mapping ∧ ∃ m y, (applyZone n z s).zone m = some y ∧ y.enabled &&& condHighHigh ≠ 0 ∧
        ((applyZone n z s).alarm m).conditions &&& condHighHigh ≠ 0 := by
  have rises : Table.rising (applyZone n z s).alm.zones = true := Table.rising_set h n z
  exact limitCalled_iff rises

theorem zoneModeOf_eq {m : Nat} (h : m ≤ 1) : zoneModeOf m = some (if m = 0 then .latching else .repeating) := by
  interval_cases m <;> rfl

theorem ackPolicyOf_eq {p : Nat} (h : p ≤ 1) : ackPolicyOf p = some (if p = 0 then .either else .both) := by
  interval_cases p <;> rfl

theorem zoneModeOf_above {m : Nat} (h : 1 < m) : zoneModeOf m = none := by
  match m, h with
  | _ + 2, _ => rfl

theorem ackPolicyOf_above {p : Nat} (h : 1 < p) : ackPolicyOf p = none := by
  match p, h with
  | _ + 2, _ => rfl

theorem zoneOf_eq (x : ZoneArgs) (mode : ZoneMode) (policy : AckPolicy) : zoneOf x mode policy =
    { coil := x.coil, lowTube := x.lowTube, highTube := x.highTube, lowElevation := x.lowElevation
      highElevation := x.highElevation, enabled := x.enabled
      highLimit := max (-500) (min 12500 x.highLimit), highHighLimit := max (-500) (min 12500 x.highHighLimit)
      spreadLimit := min 3000 x.spreadLimit, rateLimit := max 1 (min 5000 x.rateLimit)
      rateWindow := max 1 (min 15 x.rateWindow), qualityFloor := max 1 (min 7 x.qualityFloor)
      qualityCount := min 255 x.qualityCount, deadband := min 500 x.deadband, mode := mode
      repeatInterval := max 1 (min 255 x.repeatInterval), ackPolicy := policy } := by
  have clamped {lo hi : Nat} (h : lo ≤ hi) (v : Nat) := clampNat_eq_max_min h v
  rw [zoneOf, clampMap_eq_max_min, clampMap_eq_max_min, clamped (by decide), clamped (by decide), clamped (by decide),
    clamped (by decide), clamped (by decide), clamped (by decide), clamped (by decide)]
  simp only [Nat.zero_max]

/-- The checks of a Define Zone on a Defined coil (R123). -/
theorem defineZoneRefusal_defined {x : ZoneArgs} {c : CoilDef} (hz : zone ≤ 31) (hk : x.coil ≤ 7)
    (hc : s.coil x.coil = some c) : defineZoneRefusal zone x s =
      if (x.lowTube ≤ x.highTube ∧ x.highTube < c.tubes ∧ x.lowElevation ≤ x.highElevation ∧
        x.highElevation < c.elevations) ∧ x.mode ≤ 1 ∧ x.ackPolicy ≤ 1 then none else some .badArgument := by
  have hmode : (zoneModeOf x.mode).isNone = decide (1 < x.mode) := by
    by_cases h : x.mode ≤ 1
    · rw [zoneModeOf_eq h, decide_eq_false (Nat.not_lt.2 h)]
      rfl
    · rw [zoneModeOf_above (Nat.not_le.1 h), decide_eq_true (Nat.not_le.1 h)]
      rfl
  have hpolicy : (ackPolicyOf x.ackPolicy).isNone = decide (1 < x.ackPolicy) := by
    by_cases h : x.ackPolicy ≤ 1
    · rw [ackPolicyOf_eq h, decide_eq_false (Nat.not_lt.2 h)]
      rfl
    · rw [ackPolicyOf_above (Nat.not_le.1 h), decide_eq_true (Nat.not_le.1 h)]
      rfl
  have outside (f : CoilDef → Bool) : (s.coil x.coil).any f = f c := by rw [hc]; rfl
  have defined : (s.coil x.coil).isNone = false := by rw [hc]; rfl
  simp only [defineZoneRefusal, outside, hmode, hpolicy]
  rw [firstRefusal_of_false (decide_eq_false (by omega)), firstRefusal_of_false defined, firstRefusal_or, firstRefusal_or]
  simp only [rangeOutside]
  split
  next fits => exact firstRefusal_of_false (by simp; omega) _ _
  next bad => exact firstRefusal_of_true (by simp; omega) _ _

end

/-- Settles O49: the checks in their order, and the tables of ALM after a taken edit. -/
theorem zoneEditsApply : Obligations.ZoneEditsApply := by
  unfold Obligations.ZoneEditsApply
  intro s l tag zone canonical ready g applied
  have taken (z : Option Zone) : applied z (applyZone zone z s) :=
    ⟨applyZone_frame zone z s, applyZone_zone canonical.zones zone z, applyZone_alarm canonical.records.1 zone z,
      applyZone_window canonical.windows zone z, applyZone_figures canonical.figures zone z,
      applyZone_limitOutput canonical.zones zone z⟩
  have above {args : ZoneArgs} (h : 31 < zone ∨ 7 < args.coil) :
      exec (.defineZone l tag g zone args) s = .next (editRefused s l tag 0x4B .badArgument) :=
    congrArg Host.Outcome.next
      (serve_edit_refused ready rfl (by decide) (firstRefusal_of_true (decide_eq_true h) _ _))
  refine ⟨fun h => ⟨fun args => above (.inl h), ?_⟩, fun args _ h => above (.inr h), fun h hz => ?_, fun h hz => ?_,
    fun h args hk => ?_⟩
  · exact congrArg Host.Outcome.next
      (serve_edit_refused ready rfl (by decide) (firstRefusal_of_true (decide_eq_true h) _ _))
  · refine congrArg Host.Outcome.next (serve_edit_refused ready rfl (by decide) ?_)
    rw [firstRefusal_of_false (decide_eq_false (Nat.not_lt.2 h)), firstRefusal_of_true (by rw [hz]; rfl)]
  · refine ⟨_, congrArg Host.Outcome.next (serve_edit_taken ready rfl (by decide) ?_), taken none⟩
    rw [firstRefusal_of_false (decide_eq_false (Nat.not_lt.2 h)),
      firstRefusal_of_false (Option.isNone_eq_false_iff.2 hz), firstRefusal_nil]
  · intro sent
    refine ⟨fun hc => ?_, fun c hc => ?_⟩
    · refine congrArg Host.Outcome.next (serve_edit_refused ready rfl (by decide) ?_)
      rw [defineZoneRefusal, firstRefusal_of_false (decide_eq_false (by omega)), firstRefusal_of_true (by rw [hc]; rfl)]
    · intro fits
      refine ⟨fun bad => ?_, fun inside hm hp => ?_⟩
      · refine congrArg Host.Outcome.next (serve_edit_refused ready rfl (by decide) ?_)
        rw [defineZoneRefusal_defined h hk hc, if_neg]
        rintro ⟨inside, hm, hp⟩
        rcases bad with out | out | out
        · exact out inside
        · omega
        · omega
      · intro z exact
        have hzone : zoneOf args (if args.mode = 0 then .latching else .repeating)
            (if args.ackPolicy = 0 then .either else .both) = z := zoneOf_eq ..
        have happly : applyDefineZone zone args s = applyZone zone (some z) s := by
          rw [applyDefineZone, zoneModeOf_eq hm, ackPolicyOf_eq hp, ← hzone]
        have hclamped : zoneClamped args = true ↔ ¬exact := by
          simp only [zoneClamped, zoneOf_eq, decide_eq_true_iff, exact, z, not_and_or, ne_eq]
        have answered : sent = .next (edited (applyZone zone (some z) s) l tag 0x4B (clampedIf (zoneClamped args)) []) := by
          rw [← happly]
          refine congrArg Host.Outcome.next (serve_edit_taken ready rfl (by decide) ?_)
          rw [defineZoneRefusal_defined h hk hc, if_pos ⟨inside, hm, hp⟩]
        refine ⟨_, taken (some z), fun he => ?_, fun he => ?_⟩
        · rw [answered, Bool.eq_false_iff.2 fun hb => hclamped.1 hb he]
          rfl
        · rw [answered, hclamped.2 he]
          rfl

end Sys2Proof.Machine

/-! ## Requests written and read back -/

namespace Sys2Proof.Machine

/-! ### Numbers and sets -/

theorem toNat_byteOf (n k : Nat) : (byteOf n k).toNat = n / 256 ^ k % 256 := BitVec.toNat_ofNat ..

section
variable {n : Nat} {z : Int}

theorem num8_byteOf (h : fits8 n = true) : num8 (byteOf n 0) = n := by
  have : n < 256 := of_decide_eq_true h
  rw [num8, toNat_byteOf]
  omega

theorem num16_byteOf (h : fits16 n = true) : num16 (byteOf n 1) (byteOf n 0) = n := by
  have : n < 65536 := of_decide_eq_true h
  rw [num16, toNat_byteOf, toNat_byteOf]
  omega

theorem num32_byteOf (h : fits32 n = true) : num32 (byteOf n 3) (byteOf n 2) (byteOf n 1) (byteOf n 0) = n := by
  have : n < 4294967296 := of_decide_eq_true h
  simp only [num32, toNat_byteOf]
  omega

theorem signed8_byteOf (h : fitsInt8 z = true) : signed 8 (num8 (byteOf (z % 256).toNat 0)) = z := by
  have range : -128 ≤ z ∧ z < 128 := of_decide_eq_true h
  rw [num8_byteOf (decide_eq_true (by omega)), signed, BitVec.toInt_ofNat', Int.toNat_of_nonneg (by omega)]
  simp only [Int.bmod]
  omega

theorem signed16_byteOf (h : fitsInt16 z = true) :
    signed 16 (num16 (byteOf (z % 65536).toNat 1) (byteOf (z % 65536).toNat 0)) = z := by
  have range : -32768 ≤ z ∧ z < 32768 := of_decide_eq_true h
  rw [num16_byteOf (decide_eq_true (by omega)), signed, BitVec.toInt_ofNat', Int.toNat_of_nonneg (by omega)]
  simp only [Int.bmod]
  omega

theorem signed32_byteOf (h : fitsInt32 z = true) :
    signed 32 (num32 (byteOf (z % 4294967296).toNat 3) (byteOf (z % 4294967296).toNat 2)
      (byteOf (z % 4294967296).toNat 1) (byteOf (z % 4294967296).toNat 0)) = z := by
  have range : -2147483648 ≤ z ∧ z < 2147483648 := of_decide_eq_true h
  rw [num32_byteOf (decide_eq_true (by omega)), signed, BitVec.toInt_ofNat', Int.toNat_of_nonneg (by omega)]
  simp only [Int.bmod]
  omega

end

theorem byteOf_append (w : BitVec 16) : byteOf w.toNat 1 ++ byteOf w.toNat 0 = w := by
  refine BitVec.eq_of_toNat_eq ?_
  have := w.isLt
  rw [BitVec.toNat_append, toNat_byteOf, toNat_byteOf,
    ← Nat.shiftLeft_add_eq_or_of_lt (Nat.mod_lt _ (by decide)), Nat.shiftLeft_eq]
  omega

/-! ### Payloads of one shape -/

section
variable {n m : Nat} {b : Bool}

theorem oneByte_enc8 {f : Nat → Instr} (h : fits8 n = true) : oneByte f (enc8 n) = some (f n) :=
  congrArg (fun x => some (f x)) (num8_byteOf h)

theorem wordByte_enc {f : Nat → Nat → Instr} (h : (fits16 n && fits8 m) = true) :
    wordByte f (enc16 n ++ enc8 m) = some (f n m) := by
  obtain ⟨hn, hm⟩ := Bool.and_eq_true_iff.1 h
  exact congrArg₂ (fun x y => some (f x y)) (num16_byteOf hn) (num8_byteOf hm)

theorem byteWord_enc {f : Nat → Nat → Instr} (h : (fits8 n && fits16 m) = true) :
    byteWord f (enc8 n ++ enc16 m) = some (f n m) := by
  obtain ⟨hn, hm⟩ := Bool.and_eq_true_iff.1 h
  exact congrArg₂ (fun x y => some (f x y)) (num8_byteOf hn) (num16_byteOf hm)

theorem oneFlag_encBool (f : Bool → Instr) (b : Bool) : oneFlag f (encBool b) = some (f b) := by
  cases b <;> rfl

theorem editByte_enc {f : Nat → Nat → Instr} (h : (fits16 n && fits8 m) = true) :
    editByte f (enc16 n ++ enc8 m) = some (f n m) := by
  obtain ⟨hn, hm⟩ := Bool.and_eq_true_iff.1 h
  exact congrArg₂ (fun x y => some (f x y)) (num16_byteOf hn) (num8_byteOf hm)

theorem editWord_enc {f : Nat → Nat → Instr} (h : (fits16 n && fits16 m) = true) :
    editWord f (enc16 n ++ enc16 m) = some (f n m) := by
  obtain ⟨hn, hm⟩ := Bool.and_eq_true_iff.1 h
  exact congrArg₂ (fun x y => some (f x y)) (num16_byteOf hn) (num16_byteOf hm)

end

/-! ### Payloads of their own shape -/

section
variable (l : Link) (tag : Byte)

theorem parseAnchors_enc {form : ReadAnchorsForm} (h : form.wf = true) :
    parseAnchors l tag (encReadAnchorsForm form) = some (.readAnchors l tag form) := by
  cases form with
  | byCell first count =>
    obtain ⟨hf, hc⟩ := Bool.and_eq_true_iff.1 h
    exact congrArg₂ (fun x y => some (Instr.readAnchors l tag (.byCell x y))) (num16_byteOf hf) (num8_byteOf hc)
  | byChannel first count =>
    obtain ⟨hf, hc⟩ := Bool.and_eq_true_iff.1 h
    exact congrArg₂ (fun x y => some (Instr.readAnchors l tag (.byChannel x y))) (num8_byteOf hf) (num8_byteOf hc)

theorem parseSweep_enc {kind : SweepKindArg} (h : kind.wf = true) :
    parseSweep l tag (encSweepKindArg kind) = some (.requestSweep l tag kind) := by
  cases kind with
  | full => rfl
  | coil k => exact congrArg (fun x => some (Instr.requestSweep l tag (.coil x))) (num8_byteOf h)
  | other code =>
    obtain ⟨named, fits⟩ := Bool.and_eq_true_iff.1 h
    have hnum : num8 (byteOf code 0) = code := num8_byteOf fits
    have hother (k : Nat) (hk : k < 2) : byteOf code 0 ≠ BitVec.ofNat 8 k := fun he => by
      have : code = num8 (BitVec.ofNat 8 k) := by rw [← he, hnum]
      simp only [num8, BitVec.toNat_ofNat, decide_eq_true_eq] at this named
      omega
    refine (if_neg (hother 0 (by decide))).trans ((if_neg (hother 1 (by decide))).trans ?_)
    rw [hnum]

theorem parseClearPeaks_enc {form : ClearPeaksForm} (h : form.wf = true) :
    parseClearPeaks l tag (encClearPeaksForm form) = some (.clearPeaks l tag form) := by
  cases form with
  | coil k => exact congrArg (fun x => some (Instr.clearPeaks l tag (.coil x))) (num8_byteOf h)
  | all => rfl

theorem parseDefineChannel_enc {expected channel : Nat} {form : DefineChannelForm}
    (h : (Instr.defineChannel l tag expected channel form).wf = true) :
    parseDefineChannel l tag (enc16 expected ++ enc8 channel ++ encDefineChannelForm form)
      = some (.defineChannel l tag expected channel form) := by
  simp only [Instr.wf, Bool.and_eq_true] at h
  obtain ⟨⟨he, hc⟩, hform⟩ := h
  cases form with
  | configuration offset trim maxStep =>
    simp only [DefineChannelForm.wf, Bool.and_eq_true] at hform
    obtain ⟨⟨ho, ht⟩, hm⟩ := hform
    refine Eq.trans (b := some (Instr.defineChannel l tag (num16 _ _) (num8 _)
      (.configuration (signed 16 (num16 _ _)) (signed 8 (num8 _)) (num16 _ _)))) rfl ?_
    rw [num16_byteOf he, num8_byteOf hc, signed16_byteOf ho, signed8_byteOf ht, num16_byteOf hm]
  | remove =>
    refine Eq.trans (b := some (Instr.defineChannel l tag (num16 _ _) (num8 _) .remove)) rfl ?_
    rw [num16_byteOf he, num8_byteOf hc]

theorem parseEntries_enc {entries : List (Option Nat)} (h : (entries.all fun x => x.all fits16) = true) :
    parseEntries entries.length (entries.flatMap (encOption enc16)) = some entries := by
  induction entries with
  | nil => rfl
  | cons x entries ih =>
    obtain ⟨hx, hrest⟩ := Bool.and_eq_true_iff.1 (List.all_cons.symm.trans h)
    cases x with
    | none => exact congrArg (Option.map (none :: ·)) (ih hrest)
    | some cell =>
      refine (congrArg (Option.map (some (num16 (byteOf cell 1) (byteOf cell 0)) :: ·)) (ih hrest)).trans ?_
      rw [num16_byteOf hx, Option.map_some]

theorem parsePairs_enc {pairs : List ParameterPair} (h : pairs.all ParameterPair.wf = true) :
    parsePairs pairs.length (pairs.flatMap encParameterPair) = some pairs := by
  induction pairs with
  | nil => rfl
  | cons x pairs ih =>
    obtain ⟨hx, hrest⟩ := Bool.and_eq_true_iff.1 (List.all_cons.symm.trans h)
    obtain ⟨hn, hv⟩ := Bool.and_eq_true_iff.1 hx
    show Option.map
      (({ number := num8 (byteOf x.number 0), value := signed 32 (num32 _ _ _ _) } : ParameterPair) :: ·)
      (parsePairs pairs.length (pairs.flatMap encParameterPair)) = _
    rw [ih hrest, num8_byteOf hn, signed32_byteOf hv, Option.map_some]

theorem parseDefineSights_enc {expected count first : Nat} {entries : List (Option Nat)}
    (h : (Instr.defineSights l tag expected count first entries).wf = true) :
    parseDefineSights l tag (enc16 expected ++ enc16 count ++ enc16 first ++ enc8 entries.length
      ++ entries.flatMap (encOption enc16)) = some (.defineSights l tag expected count first entries) := by
  simp only [Instr.wf, Bool.and_eq_true, decide_eq_true_eq] at h
  obtain ⟨⟨⟨⟨he, hc⟩, hf⟩, few⟩, hentries⟩ := h
  have hlength : num8 (byteOf entries.length 0) = entries.length := num8_byteOf (decide_eq_true (by omega))
  refine (if_pos (c := num8 (byteOf entries.length 0) ≤ sightListPlaces) (by rwa [hlength])).trans ?_
  show Option.map _ (parseEntries _ (entries.flatMap (encOption enc16))) = _
  rw [hlength, parseEntries_enc hentries, Option.map_some, num16_byteOf he, num16_byteOf hc, num16_byteOf hf]

theorem parseSetParameters_enc {expected : Nat} {pairs : List ParameterPair}
    (h : (Instr.setParameters l tag expected pairs).wf = true) :
    parseSetParameters l tag (enc16 expected ++ enc8 pairs.length ++ pairs.flatMap encParameterPair)
      = some (.setParameters l tag expected pairs) := by
  simp only [Instr.wf, Bool.and_eq_true, decide_eq_true_eq] at h
  obtain ⟨⟨he, few⟩, hpairs⟩ := h
  have hlength : num8 (byteOf pairs.length 0) = pairs.length := num8_byteOf (decide_eq_true (by omega))
  refine (if_pos (c := 1 ≤ num8 (byteOf pairs.length 0) ∧ num8 (byteOf pairs.length 0) ≤ parameterListPlaces)
    (by rwa [hlength])).trans ?_
  show Option.map _ (parsePairs _ (pairs.flatMap encParameterPair)) = _
  rw [hlength, parsePairs_enc hpairs, Option.map_some, num16_byteOf he]

theorem parseDefineZone_enc {expected zone : Nat} {z : ZoneArgs} (h : (Instr.defineZone l tag expected zone z).wf = true) :
    parseDefineZone l tag (enc16 expected ++ enc8 zone ++ encZoneArgs z) = some (.defineZone l tag expected zone z) := by
  simp only [Instr.wf, ZoneArgs.wf, Bool.and_eq_true] at h
  obtain ⟨⟨he, hn⟩, ⟨⟨⟨⟨⟨⟨⟨⟨⟨⟨⟨⟨⟨⟨⟨hcoil, hlt⟩, hht⟩, hle⟩, hhe⟩, hh1⟩, hh2⟩, hsp⟩, hra⟩, hw⟩, hfl⟩, hqc⟩, hdb⟩, hmode⟩, hrep⟩,
    hack⟩⟩ := h
  have hset : num8 (byteOf z.enabled.toNat 0) = z.enabled.toNat :=
    num8_byteOf (decide_eq_true (Nat.lt_trans z.enabled.isLt (by decide)))
  refine (if_pos (c := num8 (byteOf z.enabled.toNat 0) < 32) (by rw [hset]; exact z.enabled.isLt)).trans ?_
  rw [hset, num16_byteOf he, num8_byteOf hn, num8_byteOf hcoil, num8_byteOf hlt, num8_byteOf hht, num8_byteOf hle,
    num8_byteOf hhe, signed16_byteOf hh1, signed16_byteOf hh2, num16_byteOf hsp, num16_byteOf hra, num8_byteOf hw,
    num8_byteOf hfl, num8_byteOf hqc, num16_byteOf hdb, num8_byteOf hmode, num8_byteOf hrep, num8_byteOf hack,
    BitVec.ofNat_toNat, BitVec.setWidth_eq]

end

/-! ### Every request -/

section
variable {i : Instr} {r : Request}

/-- Every request with a code of the catalogue has its owning block. -/
theorem ownerOf_of_known (hreq : requestOf i = some r) (known : commandKnown r.code = true) (hwf : i.wf = true) :
    ∃ f, ownerOf i = some f := by
  cases i <;> cases hreq
  case unknownCommandCode =>
    rw [Instr.wf, known] at hwf
    exact Bool.noConfusion hwf
  all_goals exact ⟨_, rfl⟩

/-- A request with a code that is not in the catalogue is the row of unknown codes. -/
theorem eq_unknownCommandCode (hreq : requestOf i = some r) (unknown : commandKnown r.code = false) :
    i = .unknownCommandCode r.link r.tag r.code r.payload := by
  cases i <;> cases hreq
  case unknownCommandCode => rfl
  all_goals cases unknown

theorem parseRequest_requestOf (hwf : i.wf = true) (hreq : requestOf i = some r) (known : commandKnown r.code = true) :
    parseRequest r.link r.tag r.code r.payload = some i := by
  cases i <;> cases hreq
  case unknownCommandCode =>
    rw [Instr.wf, known] at hwf
    exact Bool.noConfusion hwf
  case readStatus | readCoilTable | readMapStatus | readModuleStatus | readSweepStatus | readParameters | freezeMap
      | startMapping | stopMapping | cancelSweep | freezeAndClearPeaks | saveConfiguration | saveExposure | checkStore =>
    rfl
  case readHotList | readChannel | readEvents | clearExposure => exact oneByte_enc8 hwf
  case readSights | readScanRecords | readExposure => exact wordByte_enc hwf
  case zoneExposureTotal | acknowledge => exact byteWord_enc hwf
  case readBias => exact oneFlag_encBool _ _
  case deleteCoil | retireChannel | returnToService | deleteZone => exact editByte_enc hwf
  case releaseAnchor | releaseAlternate | setInterleave => exact editWord_enc hwf
  case readAnchors => exact parseAnchors_enc _ _ hwf
  case requestSweep => exact parseSweep_enc _ _ hwf
  case clearPeaks => exact parseClearPeaks_enc _ _ hwf
  case defineChannel => exact parseDefineChannel_enc _ _ hwf
  case defineSights => exact parseDefineSights_enc _ _ hwf
  case defineZone => exact parseDefineZone_enc _ _ hwf
  case setParameters => exact parseSetParameters_enc _ _ hwf
  case clearFlags l tag flags => exact congrArg (fun w => some (Instr.clearFlags l tag w)) (byteOf_append flags)
  case setMask l tag mask auto =>
    refine Eq.trans (b := (flagOf (if auto then 1 else 0)).map (.setMask l tag (byteOf mask.toNat 1 ++ byteOf mask.toNat 0)))
      ?_ ?_
    · cases auto <;> rfl
    · rw [byteOf_append]
      cases auto <;> rfl
  case setClock l tag value => exact congrArg (fun x => some (Instr.setClock l tag x)) (num32_byteOf hwf)
  case readChannelStatistics l tag first count clear =>
    obtain ⟨hf, hc⟩ := Bool.and_eq_true_iff.1 hwf
    refine Eq.trans (b := some (Instr.readChannelStatistics l tag (num8 (byteOf first 0)) (num8 (byteOf count 0)) clear)) ?_ ?_
    · cases clear <;> rfl
    · rw [num8_byteOf hf, num8_byteOf hc]
  case setEditRights l tag expected a b =>
    refine Eq.trans (b := some (Instr.setEditRights l tag (num16 (byteOf expected 1) (byteOf expected 0)) a b)) ?_ ?_
    · cases a <;> cases b <;> rfl
    · rw [num16_byteOf hwf]
  case setAutoStart l tag expected on =>
    refine Eq.trans (b := some (Instr.setAutoStart l tag (num16 (byteOf expected 1) (byteOf expected 0)) on)) ?_ ?_
    · cases on <;> rfl
    · rw [num16_byteOf hwf]
  all_goals simp only [Instr.wf, Bool.and_eq_true] at hwf
  case readCells l tag source coil start count =>
    obtain ⟨⟨⟨hs, hk⟩, hi⟩, hc⟩ := hwf
    refine Eq.trans (b := some (Instr.readCells l tag (num8 _) (num8 _) (num16 _ _) (num8 _))) rfl ?_
    rw [num8_byteOf hs, num8_byteOf hk, num16_byteOf hi, num8_byteOf hc]
  case readZones l tag source first count =>
    obtain ⟨⟨hs, hf⟩, hc⟩ := hwf
    refine Eq.trans (b := some (Instr.readZones l tag (num8 _) (num8 _) (num8 _))) rfl ?_
    rw [num8_byteOf hs, num8_byteOf hf, num8_byteOf hc]
  case defineCoil l tag expected coil tubes elevations design step =>
    obtain ⟨⟨⟨⟨⟨hg, hk⟩, ht⟩, he⟩, hd⟩, hs⟩ := hwf
    refine Eq.trans
      (b := some (Instr.defineCoil l tag (num16 _ _) (num8 _) (num8 _) (num8 _) (num16 _ _) (num16 _ _))) rfl ?_
    rw [num16_byteOf hg, num8_byteOf hk, num8_byteOf ht, num8_byteOf he, num16_byteOf hd, num16_byteOf hs]
  case assignAnchor l tag expected cell channel =>
    obtain ⟨⟨hg, hn⟩, hc⟩ := hwf
    refine Eq.trans (b := some (Instr.assignAnchor l tag (num16 _ _) (num16 _ _) (num8 _))) rfl ?_
    rw [num16_byteOf hg, num16_byteOf hn, num8_byteOf hc]
  case assignAlternate l tag expected cell channel offset =>
    obtain ⟨⟨⟨hg, hn⟩, hc⟩, ho⟩ := hwf
    refine Eq.trans (b := some (Instr.assignAlternate l tag (num16 _ _) (num16 _ _) (num8 _) (signed 16 (num16 _ _)))) rfl ?_
    rw [num16_byteOf hg, num16_byteOf hn, num8_byteOf hc, signed16_byteOf ho]

end

/-- Settles O6: command by command, by the shape of its payload; a payload that is read back is of a fitting length. -/
theorem requestsReadBack : Obligations.RequestsReadBack := by
  unfold Obligations.RequestsReadBack
  intro i r hwf hreq known
  have parsed := parseRequest_requestOf hwf hreq known
  obtain ⟨-, fits⟩ := spells_of_parse parsed
  rw [BitVec.ofNat_toNat, BitVec.setWidth_eq] at fits
  exact ⟨parsed, fits⟩

end Sys2Proof.Machine

/-! ## Frames received whole, and stale edits -/

namespace Sys2Proof.Machine

/-! ### A frame received whole -/

/-- A payload that fits its command fits the frame (R175). -/
theorem length_le_of_lengthFits {code : Byte} {n : Nat} (h : lengthFits code n = true) : n ≤ 480 := by
  unfold lengthFits at h
  split at h
  case h_48 =>
    obtain ⟨k, few, fits⟩ := List.any_eq_true.1 h
    have := List.mem_range.1 few
    have := of_decide_eq_true fits
    simp only [sightListPlaces] at *
    omega
  case h_49 =>
    obtain ⟨k, few, fits⟩ := List.any_eq_true.1 h
    have := List.mem_range'_1.1 few
    have := of_decide_eq_true fits
    simp only [parameterListPlaces] at *
    omega
  case h_50 => cases h
  all_goals
    have := of_decide_eq_true h
    omega

theorem length_payload_le {i : Instr} {r : Request} (hwf : i.wf = true) (hreq : requestOf i = some r) :
    r.payload.length ≤ 480 := by
  cases known : commandKnown r.code with
  | true => exact length_le_of_lengthFits (requestsReadBack i r hwf hreq known).2
  | false =>
    rw [eq_unknownCommandCode hreq known, Instr.wf, Bool.and_eq_true, decide_eq_true_eq] at hwf
    exact hwf.2

/-- The bytes of a frame from Length onward (R175). -/
def Request.bytes (r : Request) : List Byte :=
  let body := enc16 (2 + r.payload.length) ++ [r.tag, r.code] ++ r.payload
  body ++ enc16 (crc16 body).toNat

theorem Request.frame_eq (r : Request) : r.frame = 0xC5 :: r.bytes := rfl

section
variable {r : Request}

theorem Request.length_bytes : r.bytes.length = r.payload.length + 6 := by
  simp [Request.bytes, enc16]

theorem Request.frameLength_bytes (h : r.payload.length ≤ 480) : frameLength r.bytes = 2 + r.payload.length :=
  num16_byteOf (decide_eq_true (by omega))

theorem Request.payload_bytes : (r.bytes.drop 4).take r.payload.length = r.payload := by
  have : r.bytes.drop 4 = r.payload ++ enc16 (crc16 _).toNat := rfl
  rw [this, List.take_left]

theorem Request.crcAgrees_bytes (h : r.payload.length ≤ 480) : crcAgrees r.bytes = true := by
  rw [crcAgrees_iff, Request.frameLength_bytes h]
  have body : (enc16 (2 + r.payload.length) ++ [r.tag, r.code] ++ r.payload).length = 2 + r.payload.length + 2 := by
    simp [enc16]
    omega
  have first : r.bytes.take (2 + r.payload.length + 2) = enc16 (2 + r.payload.length) ++ [r.tag, r.code] ++ r.payload := by
    rw [Request.bytes, ← body, List.take_left]
  have last (k : Nat) : byteAt r.bytes (2 + r.payload.length + 2 + k)
      = (enc16 (crc16 (enc16 (2 + r.payload.length) ++ [r.tag, r.code] ++ r.payload)).toNat).getD k 0 := by
    rw [byteAt, Request.bytes, ← body, List.getD_append_right _ _ _ _ (by omega), Nat.add_sub_cancel_left]
  rw [first, last 0, last 1]
  exact (byteOf_append _).symm

/-- The last byte of a request's frame hands the request over (R164). -/
theorem receiveByte_frame {s : State} {bytes : List Byte} {byte : Byte} (h : r.payload.length ≤ 480)
    (frame : r.frame = 0xC5 :: (bytes ++ [byte])) (receiving : (s.lnk.links.get r.link).receiver = .receiving bytes) :
    receiveByte r.link byte false false s
      = serveFrame r.link r.tag r.code r.payload (setReceiver r.link .hunting s) := by
  obtain ⟨-, hbytes⟩ := List.cons.inj (r.frame_eq.symm.trans frame)
  have hlength := Request.frameLength_bytes h
  have size : r.bytes.length = r.payload.length + 6 := Request.length_bytes
  have rest : frameLength r.bytes - 2 = r.payload.length := by omega
  rw [receiveByte_receiving receiving, ← hbytes,
    addByte_last ⟨by unfold lengthLow; omega, by unfold lengthHigh; omega⟩ (by omega),
    judgeFrame_agrees (Request.crcAgrees_bytes h), rest, Request.payload_bytes]
  rfl

end

/-- A request handed over does what its row does. -/
theorem serveFrame_requestOf {i : Instr} {r : Request} (hwf : i.wf = true) (hreq : requestOf i = some r) (s : State) :
    exec i s = .next (serveFrame r.link r.tag r.code r.payload s) := by
  cases known : commandKnown r.code with
  | false =>
    rw [eq_unknownCommandCode hreq known]
    rfl
  | true =>
    obtain ⟨f, hf⟩ := ownerOf_of_known hreq known hwf
    obtain ⟨r', hr', served⟩ := exec_of_owner hf
    cases hreq.symm.trans hr'
    rw [served, serveFrame, frameOwner, parseRequest_requestOf hwf hreq known]
    exact congrArg (fun f => Host.Outcome.next (serve r.link r.tag r.code f s)) hf.symm

/-- Settles O5: the last byte completes the frame, whose CRC agrees, and the frame is read back as its command. -/
theorem lastFrameByteServesCommand : Obligations.LastFrameByteServesCommand := by
  unfold Obligations.LastFrameByteServesCommand
  intro s i r bytes byte hwf hreq frame receiving
  rw [exec_linkByte, receiveByte_frame (length_payload_le hwf hreq) frame receiving]
  exact (serveFrame_requestOf hwf hreq _).symm

/-! ### Edits of another generation -/

/-- Every edit opens with its Expected Generation, and its owner checks that first (R173, R177). -/
theorem edit_of_isEditCode {i : Instr} {r : Request} (hwf : i.wf = true) (hreq : requestOf i = some r)
    (hedit : isEditCode r.code = true) : ∃ expected rest refusal clamped apply events,
      r.payload = enc16 expected ++ rest ∧ fits16 expected = true ∧
        ownerOf i = some (edit r.link expected refusal clamped apply events) := by
  cases i <;> cases hreq
  case unknownCommandCode l tag code payload =>
    simp only [isEditCode, Instr.wf, commandKnown, decide_eq_true_eq, Bool.and_eq_true, Bool.not_eq_true',
      decide_eq_false_iff_not] at hedit hwf
    omega
  case defineCoil | deleteCoil | defineChannel | retireChannel | returnToService | assignAnchor | releaseAnchor
      | assignAlternate | releaseAlternate | defineSights | setInterleave | defineZone | deleteZone | setParameters
      | setEditRights | setAutoStart =>
    refine ⟨_, _, _, _, _, _, rfl, ?_, rfl⟩
    simp only [Instr.wf, Bool.and_eq_true] at hwf
    tauto
  all_goals cases hedit

theorem enc16_append_inj {n m : Nat} {p q : List Byte} (hn : fits16 n = true) (hm : fits16 m = true)
    (h : enc16 n ++ p = enc16 m ++ q) : n = m := by
  obtain ⟨high, tail⟩ := List.cons.inj h
  obtain ⟨low, -⟩ := List.cons.inj tail
  rw [← num16_byteOf hn, high, low, num16_byteOf hm]

theorem commandKnown_of_isEditCode {code : Byte} (h : isEditCode code = true) : commandKnown code = true := by
  simp only [isEditCode, commandKnown, decide_eq_true_eq] at h ⊢
  omega

/-- Settles O15: the Expected Generation of the payload is the one that the edit checks. -/
theorem staleEditsRefused : Obligations.StaleEditsRefused := by
  unfold Obligations.StaleEditsRefused
  intro s i r expected rest hwf hreq hedit hpayload hfits stale ready
  obtain ⟨expected', rest', refusal, clamped, apply, events, hpayload', hfits', howner⟩ := edit_of_isEditCode hwf hreq hedit
  have same : expected = expected' :=
    enc16_append_inj (decide_eq_true hfits) hfits' (hpayload.symm.trans hpayload')
  subst same
  obtain ⟨r', hr', served⟩ := exec_of_owner howner
  cases hreq.symm.trans hr'
  have other : r.code ≠ acknowledgeCode := fun h => by
    rw [h] at hedit
    cases hedit
  have passed := linkRefusal_none_of_rights s r.link r.code (commandKnown_of_isEditCode hedit) other ready.2
  exact (served s).trans (congrArg Host.Outcome.next (serve_now ready.1 passed (edit_stale stale)))

end Sys2Proof.Machine

/-! ## Read Events, Clear Flags, Set Mask and the status read -/

namespace Sys2Proof.Machine

/-! ### Codes and entries in bytes (R172, R176) -/

theorem resultCode_eq (r : Result) : r.code = resultCode r := by
  cases r <;> rfl

theorem kindCode_eq (k : EventKind) : k.code = kindCode k := by
  cases k <;> rfl

theorem eventBytes_eq (x : Event) : x.encode = eventBytes x := by
  rw [Event.encode, kindCode_eq, eventBytes]

theorem encode_refused_eq (x : Refused) : x.encode = [x.command] ++ enc8 (resultCode x.result) := by
  rw [Refused.encode, resultCode_eq]

/-! ### The status read -/

theorem oldest_eq (x : EventUnit) : x.oldest = (x.history.head?.map Event.sequence).getD x.nextSequence := by
  unfold EventUnit.oldest
  cases x.history <;> rfl

theorem statusPayload_eq (s : State) (l : Link) : statusPayload s l = statusBytes s l := by
  have hrefused : Refused.encode = fun x => [x.command] ++ enc8 (resultCode x.result) := funext encode_refused_eq
  unfold statusPayload statusBytes bitRate
  rw [hrefused, oldest_eq]
  cases l <;> rfl

/-! ### Flags -/

theorem tenFlags_of_lt {w : BitVec 16} (h : w.toNat < 1024) : tenFlags w = some (w.setWidth 10) := if_pos h

theorem tenFlags_of_le {w : BitVec 16} (h : 1024 ≤ w.toNat) : tenFlags w = none := if_neg (Nat.not_lt.2 h)

/-- Settles O11: each command through its owner, whose only change is to the sending link's part of EVT. -/
theorem flagCommandsActOnTheirLink : Obligations.FlagCommandsActOnTheirLink := by
  unfold Obligations.FlagCommandsActOnTheirLink
  intro s l tag hs x put
  refine ⟨fun flags h => ?_, fun flags h => ?_, fun mask auto h => ?_, fun mask auto h => ?_, fun h => ?_, fun h => ?_⟩
  · refine congrArg Host.Outcome.next (serve_open hs rfl rfl (by decide) ?_)
    rw [ownClearFlags, tenFlags_of_lt h]
    rfl
  · refine congrArg Host.Outcome.next (serve_open hs rfl rfl (by decide) ?_)
    rw [ownClearFlags, tenFlags_of_le h]
    rfl
  · refine congrArg Host.Outcome.next (serve_open hs rfl rfl (by decide) ?_)
    rw [ownSetMask, tenFlags_of_lt h]
    rfl
  · refine congrArg Host.Outcome.next (serve_open hs rfl rfl (by decide) ?_)
    rw [ownSetMask, tenFlags_of_le h]
    rfl
  · refine congrArg Host.Outcome.next (serve_open hs rfl rfl (by decide) ?_)
    have hx : (s.eventLink l).autoClear = true := h
    have cleared : (EventLink.clearFlags x.flags x).flags = 0 := BitVec.and_not_self _
    have hput : onEventLink s l (EventLink.clearFlags x.flags) = put { x with flags := 0 } :=
      congrArg (fun f => put { x with flags := f }) cleared
    rw [ownReadStatus, if_pos hx, statusPayload_eq]
    exact congrArg (fun t => (t, Answer.now .ok (statusBytes s l))) hput
  · refine congrArg Host.Outcome.next (serve_open hs rfl rfl (by decide) ?_)
    have hx : ¬(s.eventLink l).autoClear = true := by simp [State.eventLink, show (s.evt.links.get l).autoClear = false from h]
    rw [ownReadStatus, if_neg hx, statusPayload_eq]

/-! ### Read Events -/

section
variable {history : List Event} {first n : Nat}

/-- In a history numbered from `first` on, the entries from `start` on are all but the first ones. -/
theorem filter_sequence_of_range (h : history.map Event.sequence = List.range' first n) (start : Nat) :
    (history.filter fun y => decide (start ≤ y.sequence)) = history.drop (start - first) := by
  induction history generalizing first n with
  | nil => simp
  | cons y history ih =>
    cases n with
    | zero => cases h
    | succ n =>
      obtain ⟨hy, hrest⟩ := List.cons.inj (h.trans List.range'_succ)
      rw [List.filter_cons, ih hrest]
      by_cases hs : start ≤ y.sequence
      · rw [if_pos (decide_eq_true hs), show start - first = 0 by omega, show start - (first + 1) = 0 by omega,
          List.drop_zero, List.drop_zero]
      · rw [if_neg (by simpa using hs), show start - first = start - (first + 1) + 1 by omega, List.drop_succ_cons]

theorem length_of_range (h : history.map Event.sequence = List.range' first n) : history.length = n := by
  rw [← List.length_map, h, List.length_range']

/-- A read leaves the cursor past the entries it returns (R155). -/
theorem cursorAfter_of_range (h : history.map Event.sequence = List.range' first n) :
    cursorAfter first history = first + n := by
  rcases List.eq_nil_or_concat history with rfl | ⟨before, y, rfl⟩
  · cases n with
    | zero => rfl
    | succ n => cases h
  · have hlength := length_of_range h
    rw [List.length_concat] at hlength
    subst hlength
    rw [List.concat_eq_append, List.map_append, List.range'_concat] at h
    have hy : y.sequence = first + 1 * before.length := by simpa using (List.append_inj' h rfl).2
    simp only [cursorAfter, List.concat_eq_append, List.getLast?_append, List.getLast?_singleton, Option.some_or]
    omega

theorem map_sequence_taken (h : history.map Event.sequence = List.range' first n) {k m : Nat} (fits : k + m ≤ n) :
    ((history.drop k).take m).map Event.sequence = List.range' (first + k) m := by
  rw [List.map_take, List.map_drop, h]
  exact List.ext_getElem (by simp; omega) (by simp)

end

theorem HistoryConsecutive.oldest {s : State} (h : HistoryConsecutive s) : s.evt.oldest = s.evt.nextSequence - 128 := by
  obtain ⟨-, numbers⟩ := h
  simp only [historyPlaces] at numbers
  rw [oldest_eq, ← List.head?_map, numbers, List.head?_range']
  by_cases empty : min s.evt.nextSequence 128 = 0
  · rw [if_pos empty, Option.getD_none]
    omega
  · rw [if_neg empty, Option.getD_some]

theorem HistoryConsecutive.entriesFrom {s : State} (h : HistoryConsecutive s) {start count : Nat}
    (below : s.evt.nextSequence - 128 ≤ start) (above : start ≤ s.evt.nextSequence) :
    let entries := (s.evt.history.drop (start - (s.evt.nextSequence - 128))).take (min count (s.evt.nextSequence - start))
    entriesFrom s.evt start count = entries ∧
      entries.map Event.sequence = List.range' start (min count (s.evt.nextSequence - start)) := by
  obtain ⟨-, numbers⟩ := h
  intro entries
  refine ⟨?_, ?_⟩
  · rw [Machine.entriesFrom, filter_sequence_of_range numbers, historyPlaces, List.take_eq_take_iff, List.length_drop,
      length_of_range numbers]
    simp only [historyPlaces]
    omega
  · refine (map_sequence_taken numbers ?_).trans ?_
    · simp only [historyPlaces]
      omega
    · simp only [historyPlaces]
      rw [Nat.add_sub_cancel' below]

/-- A taken Read Events, in the numbers and entries that it returns (R155, R156). -/
theorem ownReadEvents_eq {s : State} {l : Link} {count oldest start past : Nat} {entries : List Event} (some : count ≠ 0)
    (ho : s.evt.oldest = oldest) (hs : max (s.evt.links.get l).cursor oldest = start)
    (he : entriesFrom s.evt start (min count 8) = entries) (hp : cursorAfter start entries = past) :
    let x := s.evt.links.get l
    let moved : EventLink := { x with cursor := past }
    ownReadEvents l count s =
      (s.withEvt { s.evt with
          links := s.evt.links.set l (if x.cursor < oldest then moved.setFlags historyLoss else moved) },
        .now (if 8 < count then .clamped else .ok)
          (lossPayload x.cursor oldest ++ enc32 past ++ enc32 oldest ++ enc32 s.evt.nextSequence ++ enc8 entries.length
            ++ entries.flatMap eventBytes)) := by
  intro x moved
  subst ho hs he hp
  have hencode : Event.encode = eventBytes := funext eventBytes_eq
  have hclamped : clampedIf (decide (readEventsLimit < count)) = if 8 < count then .clamped else .ok := by
    by_cases many : 8 < count <;> simp [clampedIf, readEventsLimit, many]
  rw [ownReadEvents, if_neg some, hclamped, hencode]
  by_cases lost : (s.eventLink l).cursor < s.evt.oldest
  · have lost' : x.cursor < s.evt.oldest := lost
    simp only [lost, decide_true, if_true, if_pos lost']
    rfl
  · have lost' : ¬x.cursor < s.evt.oldest := lost
    simp only [lost, decide_false, Bool.false_eq_true, if_false, if_neg lost']
    rfl

/-- Settles O10: the history is numbered without a gap, so that the entries from the cursor on are its tail. -/
theorem readEventsFromCursor : Obligations.ReadEventsFromCursor := by
  unfold Obligations.ReadEventsFromCursor
  intro s l tag hs
  refine ⟨congrArg Host.Outcome.next (serve_open hs rfl rfl (by decide) rfl), ?_⟩
  intro count consecutive some inside cursor oldest start taken entries loss moved after
  obtain ⟨returned, numbers⟩ := consecutive.entriesFrom (start := start) (count := min count 8) (le_max_right ..)
    (max_le inside (Nat.sub_le ..))
  have hlength : entries.length = taken := length_of_range numbers
  refine ⟨hlength, congrArg Host.Outcome.next (serve_open hs rfl rfl (by decide) ?_)⟩
  rw [ownReadEvents_eq (by omega) consecutive.oldest rfl returned (cursorAfter_of_range numbers)]
  exact congrArg (fun n => (_, Answer.now _ (_ ++ enc8 n ++ _))) hlength

end Sys2Proof.Machine

/-! ## Anchor edits, alternate edits and the dependence rule -/

namespace Sys2Proof.Machine

/-! ### The dependence rule -/

/-- Cell `m` stands on the tube of cell `n`, at another elevation (R93). -/
def OnTube (s : State) (n m : Nat) : Prop :=
  ∃ here there, placeOf s.geometry n = some here ∧ placeOf s.geometry m = some there ∧
    there.coil = here.coil ∧ there.tube = here.tube ∧ there.elevation ≠ here.elevation

section
variable {s : State} {n a : Nat} {x : Alternate}

theorem primaryElsewhereOnTube_iff :
    primaryElsewhereOnTube s n a = true ↔ ∃ m, (m, a) ∈ s.cfg.primaries ∧ OnTube s n m := by
  unfold primaryElsewhereOnTube OnTube
  cases placeOf s.geometry n with
  | none => simp
  | some here =>
    simp only [List.any_eq_true, Bool.and_eq_true, decide_eq_true_eq, Prod.exists]
    constructor
    · rintro ⟨m, a, mem, rfl, place⟩
      cases there : placeOf s.geometry m with
      | none => simp [there] at place
      | some q => exact ⟨m, mem, here, q, rfl, there, by simpa [there] using place⟩
    · rintro ⟨m, mem, _, q, ⟨⟩, there, place⟩
      exact ⟨m, a, mem, rfl, by simpa [there] using place⟩

theorem releaseCause_eq : releaseCause s n x =
    if Table.find s.cfg.primaries n = none then some 1
    else if primaryElsewhereOnTube s n x.channel = true then none else some 2 := by
  simp only [releaseCause, Option.isNone_iff_eq_none]

theorem releaseCause_eq_one_iff : releaseCause s n x = some 1 ↔ Table.find s.cfg.primaries n = none := by
  rw [releaseCause_eq]
  by_cases primary : Table.find s.cfg.primaries n = none
  · simp [primary]
  · by_cases elsewhere : primaryElsewhereOnTube s n x.channel = true <;> simp [primary, elsewhere]

theorem releaseCause_eq_none_iff : releaseCause s n x = none ↔
    (Table.find s.cfg.primaries n).isSome = true ∧ ∃ m, (m, x.channel) ∈ s.cfg.primaries ∧ OnTube s n m := by
  rw [releaseCause_eq, ← primaryElsewhereOnTube_iff, Option.isSome_iff_ne_none]
  by_cases primary : Table.find s.cfg.primaries n = none
  · simp [primary]
  · by_cases elsewhere : primaryElsewhereOnTube s n x.channel = true <;> simp [primary, elsewhere]

theorem releaseCause_eq_two (stands : releaseCause s n x ≠ none) (primary : releaseCause s n x ≠ some 1) :
    releaseCause s n x = some 2 := by
  rw [releaseCause_eq] at stands primary ⊢
  split
  next h => exact absurd (if_pos h) primary
  next h =>
    rw [if_neg h] at stands
    split
    next elsewhere => exact absurd (if_pos elsewhere) stands
    next => rfl

theorem find_releaseDependents (h : Table.rising s.cfg.alternates = true) :
    Table.find (releaseDependents s).cfg.alternates n = some x ↔
      Table.find s.cfg.alternates n = some x ∧ releaseCause s n x = none := by
  rw [show (releaseDependents s).cfg.alternates = s.cfg.alternates.filter _ from rfl, Table.find_filter h,
    Option.isNone_iff_eq_none]

theorem mem_dependenceNotes (h : Table.rising s.cfg.alternates = true) (note : Note) : note ∈ dependenceNotes s ↔
    ∃ n x cause, Table.find s.cfg.alternates n = some x ∧ releaseCause s n x = some cause ∧
      note = { kind := .alternateReleased, subject := n, detail := (x.channel : Int) + 128 * cause } := by
  simp only [dependenceNotes, List.mem_filterMap, Option.map_eq_some_iff, Prod.exists, Table.find_eq_some_iff h]
  constructor
  · rintro ⟨n, x, mem, cause, hc, rfl⟩
    exact ⟨n, x, cause, mem, hc, rfl⟩
  · rintro ⟨n, x, cause, mem, hc, rfl⟩
    exact ⟨n, x, mem, cause, hc, rfl⟩

theorem pairwise_dependenceNotes (h : Table.rising s.cfg.alternates = true) :
    (dependenceNotes s).Pairwise fun first second => first.subject < second.subject := by
  refine List.pairwise_filterMap.2 (((Table.rising_iff_pairwise _).1 h).imp fun {x y} below first hf second hs => ?_)
  obtain ⟨_, -, rfl⟩ := Option.map_eq_some_iff.1 hf
  obtain ⟨_, -, rfl⟩ := Option.map_eq_some_iff.1 hs
  exact below

end

/-! ### Checks that name a cell -/

section
variable {s : State} {cell channel : Nat} {offset : Int} {rest : List (Bool × Result)}

theorem firstRefusal_cellChecks_above (h : 2047 < cell) : firstRefusal (cellChecks s cell ++ rest) = some .badArgument :=
  firstRefusal_of_true (decide_eq_true h) _ _

theorem firstRefusal_cellChecks_unused (h : cell ≤ 2047) (unused : s.inUse cell = false) :
    firstRefusal (cellChecks s cell ++ rest) = some .notConfigured :=
  (firstRefusal_of_false (decide_eq_false (Nat.not_lt.2 h)) _ _).trans
    (firstRefusal_of_true (by rw [unused]; rfl) _ _)

theorem firstRefusal_cellChecks_used (h : cell ≤ 2047) (used : s.inUse cell = true) :
    firstRefusal (cellChecks s cell ++ rest) = firstRefusal rest :=
  (firstRefusal_of_false (decide_eq_false (Nat.not_lt.2 h)) _ _).trans
    (firstRefusal_of_false (by rw [used]; rfl) _ _)

/-- What the primaries are after a channel is moved to a cell (R91). -/
theorem find_movePrimary (h : Table.rising s.cfg.primaries = true) (cell channel n : Nat) :
    Table.find (movePrimary s.cfg.primaries cell channel) n =
      if n = cell then some channel
      else (Table.find s.cfg.primaries n).bind fun x => if x = channel then none else some x := by
  rw [movePrimary, Table.find_insert]
  refine if_congr Iff.rfl rfl (Option.ext fun v => ?_)
  rw [Table.find_filter h]
  cases Table.find s.cfg.primaries n with
  | none => simp
  | some x =>
    by_cases hx : x = channel
    · simp only [hx, Option.bind_some, if_true, decide_eq_true_eq, Option.some.injEq, reduceCtorEq, iff_false]
      rintro ⟨rfl, other⟩
      exact other rfl
    · simp only [Option.bind_some, hx, if_false, decide_eq_true_eq, Option.some.injEq]
      exact ⟨And.left, fun h => ⟨h, h ▸ hx⟩⟩

/-- The checks of an Assign Alternate, from the cell's primary on (R94). -/
def alternateChecks (s : State) (cell channel : Nat) : List (Bool × Result) :=
  [ (!primaryOutOfService s cell, .primaryInService),
    (decide ((s.channel channel).state = .unused ∨ (s.channel channel).state = .failed
      ∨ (s.channel channel).state = .retired), .alternateBad),
    (isAlternate s channel, .alternateInUse),
    (!primaryElsewhereOnTube s cell channel, .badArgument) ]

theorem primaryOutOfService_none (h : Table.find s.cfg.primaries cell = none) : primaryOutOfService s cell = false := by
  rw [primaryOutOfService, h]

theorem primaryOutOfService_some {primary : Nat} (h : Table.find s.cfg.primaries cell = some primary) :
    primaryOutOfService s cell = true ↔ (s.channel primary).state = .failed ∨ (s.channel primary).state = .retired := by
  rw [primaryOutOfService, h]
  exact decide_eq_true_iff

end

/-! ### The four edits -/

section
variable {s : State} {l : Link} {tag : Byte} {cell channel : Nat} {offset : Int}

/-- The checks of an Assign Alternate of a cell in use and a channel of the unit (R94). -/
theorem exec_assignAlternate_refused (ready : Ready s l) (hcell : cell ≤ 2047) (used : s.inUse cell = true)
    (hchannel : channel ≤ 95) {r : Result} (h : firstRefusal (alternateChecks s cell channel) = some r) :
    exec (.assignAlternate l tag s.cfg.generation cell channel offset) s = .next (editRefused s l tag 0x47 r) := by
  refine congrArg Host.Outcome.next (serve_edit_refused ready rfl (by decide) ?_)
  rw [firstRefusal_of_false (decide_eq_false (by unfold channelCount; omega)), firstRefusal_of_false (by rw [used]; rfl)]
  exact h

theorem exec_assignAlternate_taken (ready : Ready s l) (hcell : cell ≤ 2047) (used : s.inUse cell = true)
    (hchannel : channel ≤ 95) (h : firstRefusal (alternateChecks s cell channel) = none) :
    exec (.assignAlternate l tag s.cfg.generation cell channel offset) s = .next
      (edited
        (s.withCfg
          { s.cfg with
            alternates :=
              Table.insert s.cfg.alternates cell { channel := channel, offset := max (-500) (min 500 offset) } })
        l tag 0x47 (if max (-500) (min 500 offset) = offset then .ok else .clamped)
        (((Table.find s.cfg.alternates cell).map fun old =>
            { kind := .alternateReleased, subject := cell, detail := (old.channel : Int) + 128 * (3 : Nat) }).toList
          ++ [{ kind := .alternateAssigned, subject := cell, detail := channel }])) := by
  have hoffset : clampOffset offset = max (-500) (min 500 offset) := clampInt_eq_max_min (by decide) offset
  rw [← hoffset]
  refine congrArg Host.Outcome.next ((serve_edit_taken ready rfl (by decide) ?_).trans ?_)
  · rw [firstRefusal_of_false (decide_eq_false (by unfold channelCount; omega)),
      firstRefusal_of_false (by rw [used]; rfl)]
    exact h
  · have hclamped : clampedIf (decide (clampOffset offset ≠ offset)) =
        if clampOffset offset = offset then .ok else .clamped := by
      by_cases hc : clampOffset offset = offset <;> simp [clampedIf, hc]
    rw [hclamped]
    cases Table.find s.cfg.alternates cell <;> rfl

theorem firstRefusal_alternateChecks_inService (h : primaryOutOfService s cell = false) :
    firstRefusal (alternateChecks s cell channel) = some .primaryInService :=
  firstRefusal_of_true (by rw [h]; rfl) _ _

theorem firstRefusal_alternateChecks_out (h : primaryOutOfService s cell = true) :
    firstRefusal (alternateChecks s cell channel) = firstRefusal (alternateChecks s cell channel).tail :=
  firstRefusal_of_false (by rw [h]; rfl) _ _

end

/-- Settles O43: the dependence rule alternate by alternate, then the checks of each edit in their order. -/
theorem anchorEditsByDependence : Obligations.AnchorEditsByDependence := by
  unfold Obligations.AnchorEditsByDependence
  intro onTube released
  refine ⟨fun t n x => ⟨releaseCause_eq_one_iff, releaseCause_eq_none_iff, releaseCause_eq_two⟩,
    fun t rises => ⟨rfl, fun n x => find_releaseDependents rises, mem_dependenceNotes rises, pairwise_dependenceNotes rises⟩,
    ?_⟩
  intro s l tag cell channel canonical ready g assign release alternate drop refused state
  refine ⟨fun above => ⟨?_, ?_, ?_⟩, fun bad offset => ?_, fun inside unused => ⟨?_, ?_, ?_, fun hchannel offset => ?_⟩,
    fun inside used => ⟨fun above => ?_, fun hchannel unused => ?_, fun hchannel configured => ?_, fun noPrimary => ⟨?_, ?_⟩,
      fun hasPrimary => ?_, fun offset primary hp hchannel => ?_, fun noAlternate => ?_, fun x hx => ?_⟩⟩
  · exact congrArg Host.Outcome.next
      (serve_edit_refused ready rfl (by decide) (firstRefusal_cellChecks_above above))
  · exact congrArg Host.Outcome.next
      (serve_edit_refused ready rfl (by decide) (firstRefusal_cellChecks_above above))
  · exact congrArg Host.Outcome.next
      (serve_edit_refused ready rfl (by decide) (firstRefusal_cellChecks_above above))
  · refine congrArg Host.Outcome.next
      (serve_edit_refused ready rfl (by decide) (firstRefusal_of_true (decide_eq_true ?_) _ _))
    unfold channelCount
    omega
  · exact congrArg Host.Outcome.next
      (serve_edit_refused ready rfl (by decide) (firstRefusal_cellChecks_unused inside unused))
  · exact congrArg Host.Outcome.next
      (serve_edit_refused ready rfl (by decide) (firstRefusal_cellChecks_unused inside unused))
  · exact congrArg Host.Outcome.next
      (serve_edit_refused ready rfl (by decide) (firstRefusal_cellChecks_unused inside unused))
  · refine congrArg Host.Outcome.next (serve_edit_refused ready rfl (by decide) ?_)
    rw [firstRefusal_of_false (decide_eq_false (by unfold channelCount; omega)),
      firstRefusal_of_true (by rw [unused]; rfl)]
  · refine congrArg Host.Outcome.next (serve_edit_refused ready rfl (by decide) ?_)
    rw [firstRefusal_cellChecks_used inside used, firstRefusal_of_true (decide_eq_true (by unfold channelCount; omega))]
  · refine congrArg Host.Outcome.next (serve_edit_refused ready rfl (by decide) ?_)
    rw [firstRefusal_cellChecks_used inside used, firstRefusal_of_false (decide_eq_false (by unfold channelCount; omega)),
      firstRefusal_of_true (decide_eq_true unused)]
  · refine ⟨find_movePrimary canonical.primaries cell channel,
      congrArg Host.Outcome.next (serve_edit_taken ready rfl (by decide) ?_)⟩
    rw [firstRefusal_cellChecks_used inside used, firstRefusal_of_false (decide_eq_false (by unfold channelCount; omega)),
      firstRefusal_of_false (decide_eq_false configured), firstRefusal_nil]
  · refine congrArg Host.Outcome.next (serve_edit_refused ready rfl (by decide) ?_)
    rw [firstRefusal_cellChecks_used inside used, firstRefusal_of_true (by rw [noPrimary]; rfl)]
  · exact fun hchannel offset => exec_assignAlternate_refused ready inside used hchannel
      (firstRefusal_alternateChecks_inService (primaryOutOfService_none noPrimary))
  · refine congrArg Host.Outcome.next (serve_edit_taken ready rfl (by decide) ?_)
    rw [firstRefusal_cellChecks_used inside used, firstRefusal_of_false (Option.isNone_eq_false_iff.2 hasPrimary),
      firstRefusal_nil]
  · intro clamped outOfService
    have hout := primaryOutOfService_some hp
    refine ⟨fun inService => ?_, fun out bad => ?_, fun out configured good => ⟨fun taken => ?_, fun free => ⟨fun off => ?_, fun on => ?_⟩⟩⟩
    · exact exec_assignAlternate_refused ready inside used hchannel
        (firstRefusal_alternateChecks_inService (Bool.eq_false_iff.2 (mt hout.1 inService)))
    · refine exec_assignAlternate_refused ready inside used hchannel
        ((firstRefusal_alternateChecks_out (hout.2 out)).trans (firstRefusal_of_true (decide_eq_true bad) _ _))
    · refine exec_assignAlternate_refused ready inside used hchannel
        ((firstRefusal_alternateChecks_out (hout.2 out)).trans
          ((firstRefusal_of_false (decide_eq_false (not_or.2 ⟨configured, good⟩)) _ _).trans
            (firstRefusal_of_true (isAlternate_iff.2 taken) _ _)))
    · refine exec_assignAlternate_refused ready inside used hchannel
        ((firstRefusal_alternateChecks_out (hout.2 out)).trans
          ((firstRefusal_of_false (decide_eq_false (not_or.2 ⟨configured, good⟩)) _ _).trans
            ((firstRefusal_of_false (Bool.eq_false_iff.2 (mt isAlternate_iff.1 ?_)) _ _).trans
              (firstRefusal_of_true ?_ _ _))))
      · rintro ⟨x, mem, hx⟩
        exact free x mem hx
      · rw [Bool.not_eq_true', Bool.eq_false_iff, ne_eq, primaryElsewhereOnTube_iff]
        rintro ⟨m, mem, place⟩
        exact off m mem place
    · refine exec_assignAlternate_taken ready inside used hchannel
        ((firstRefusal_alternateChecks_out (hout.2 out)).trans
          ((firstRefusal_of_false (decide_eq_false (not_or.2 ⟨configured, good⟩)) _ _).trans
            ((firstRefusal_of_false (Bool.eq_false_iff.2 (mt isAlternate_iff.1 ?_)) _ _).trans
              (firstRefusal_of_false ?_ _ _))))
      · rintro ⟨x, mem, hx⟩
        exact free x mem hx
      · rw [Bool.not_eq_false', primaryElsewhereOnTube_iff]
        exact on
  · refine congrArg Host.Outcome.next (serve_edit_refused ready rfl (by decide) ?_)
    rw [firstRefusal_cellChecks_used inside used, firstRefusal_of_true (by rw [noAlternate]; rfl)]
  · refine congrArg Host.Outcome.next ((serve_edit_taken ready rfl (by decide) ?_).trans ?_)
    · rw [firstRefusal_cellChecks_used inside used, firstRefusal_of_false (by rw [hx]; rfl), firstRefusal_nil]
    · simp only [hx]
      rfl

end Sys2Proof.Machine

/-! ## Reads of exposure, tube by tube -/

namespace Sys2Proof.Machine

/-! ### What a read takes -/

theorem tookTube_eq (s : State) (x : ExposureRead) (tube : List Nat) (rest : List (List Nat)) :
    tookTube s x tube rest = { x with left := rest, taken := x.taken ++ tube.map (takeCell s) } := by
  have one (n : Nat) : takeCell s n =
      { cell := n
        accumulator := s.accumulator n
        multiplier := ((s.coilOfCell n).bind s.coil).elim 0 fun c =>
          (s.cell n).value.elim 0 (multiplier c.design c.step) } := by
    unfold takeCell CellRecord.multiplier
    cases (s.coilOfCell n).bind s.coil <;> cases (s.cell n).value <;> rfl
  unfold tookTube
  congr 2
  refine List.map_congr_left fun n _ => ?_
  rw [one]
  cases (s.coilOfCell n).bind s.coil <;> cases (s.cell n).value <;> rfl

theorem ExposureRead.take_cons (s : State) (reply : ExposureReply) (tube : List Nat) (rest : List (List Nat))
    (taken : List TakenCell) : ExposureRead.take s ⟨reply, tube :: rest, taken⟩ =
      tookTube s ⟨reply, tube :: rest, taken⟩ tube rest := by
  rw [tookTube_eq]
  rfl

theorem ExposureRead.takeAll_eq (s : State) (x : ExposureRead) : x.takeAll s = tookTube s x x.left.flatten [] := by
  rw [tookTube_eq]
  rfl

/-- The cell that `greatestCell` gives of a list: the first of the greatest (R120). -/
def IsGreatest (cells : List TakenCell) (g : TakenCell) : Prop :=
  ∃ before later, cells = before ++ g :: later ∧ (∀ y ∈ before, y.accumulator < g.accumulator) ∧
    ∀ y ∈ later, y.accumulator ≤ g.accumulator

theorem IsGreatest.concat {cells : List TakenCell} {g : TakenCell} (h : IsGreatest cells g) (y : TakenCell) :
    IsGreatest (cells ++ [y]) (if g.accumulator < y.accumulator then y else g) := by
  obtain ⟨before, later, rfl, less, most⟩ := h
  split
  next more =>
    refine ⟨before ++ g :: later, [], by simp, fun z hz => ?_, by simp⟩
    rcases List.mem_append.1 hz with hz | hz
    · exact Nat.lt_trans (less z hz) more
    rcases List.mem_cons.1 hz with rfl | hz
    · exact more
    · exact Nat.lt_of_le_of_lt (most z hz) more
  next many =>
    refine ⟨before, later ++ [y], by simp, less, fun z hz => ?_⟩
    rcases List.mem_append.1 hz with hz | hz
    · exact most z hz
    · rw [List.mem_singleton.1 hz]
      exact Nat.not_lt.1 many

theorem foldl_greatest (xs : List TakenCell) {cells : List TakenCell} {g : TakenCell} (h : IsGreatest cells g) :
    ∃ g', IsGreatest (cells ++ xs) g' ∧
      xs.foldl (fun best y => if best.2 < y.accumulator then (y.cell, y.accumulator) else best) (g.cell, g.accumulator)
        = (g'.cell, g'.accumulator) := by
  induction xs generalizing cells g with
  | nil => exact ⟨g, by simpa using h, rfl⟩
  | cons y xs ih =>
    obtain ⟨g', greatest, folded⟩ := ih (h.concat y)
    refine ⟨g', by simpa using greatest, ?_⟩
    rw [List.foldl_cons, ← folded]
    congr 1
    split <;> rfl

theorem greatestCell_spec {cells : List TakenCell} (h : cells ≠ []) :
    ∃ g, IsGreatest cells g ∧ greatestCell cells = (g.cell, g.accumulator) := by
  cases cells with
  | nil => exact absurd rfl h
  | cons x xs => exact foldl_greatest xs (cells := [x]) ⟨[], [], rfl, by simp, by simp⟩

/-- The reply of a read that has taken a cell (R118, R120). -/
theorem readReplies_payload {x : ExposureRead} (h : x.taken ≠ []) : ReadReplies x x.result x.payload := by
  obtain ⟨reply, left, taken⟩ := x
  cases reply with
  | cells clamped coils => exact ⟨by cases clamped <;> rfl, rfl⟩
  | total zone first next generation =>
    obtain ⟨g, ⟨before, later, rfl, less, most⟩, cell⟩ := greatestCell_spec h
    refine ⟨rfl, before, g, later, rfl, less, most, ?_⟩
    simp only [ExposureRead.payload, cell, max32]

theorem isRefusal_result (x : ExposureRead) : x.result.isRefusal = false := by
  obtain ⟨reply, left, taken⟩ := x
  cases reply with
  | cells clamped coils => cases clamped <;> rfl
  | total zone first next generation => cases next <;> rfl

/-! ### A read answered -/

section
variable {s t : State} {l : Link}

theorem answerRead_answered (s : State) (l : Link) (y : ExposureRead) : ReadAnswered s (answerRead s l y) l y := by
  have linked : (answerRead s l y).lnk.links.get l = LinkState.answer y.result y.payload (s.lnk.links.get l) :=
    onLink_get_same ..
  refine ⟨answerRead_get_same .., fun idle => ?_, fun some q held => ⟨_, _, readReplies_payload some, ?_⟩⟩
  · rw [linked, LinkState.answer, idle]
  · rw [linked, LinkState.answer, held]
    simp only [LinkState.enqueue, isRefusal_result, Bool.false_eq_true, if_false]

/-- Two states agree in all that the read of link `l` reads, and in the read and its link. -/
structure SameRead (s t : State) (l : Link) : Prop where
  cfg : t.cfg = s.cfg
  map : t.map = { s.map with reads := t.map.reads }
  read : t.map.reads.get l = s.map.reads.get l
  link : t.lnk.links.get l = s.lnk.links.get l

/-- The two states agree in the read and the link of `l`. -/
def SameOf (s t : State) (l : Link) : Prop :=
  t.map.reads.get l = s.map.reads.get l ∧ t.lnk.links.get l = s.lnk.links.get l

theorem SameRead.takeCell (h : SameRead s t l) : takeCell t = takeCell s := by
  obtain ⟨cfg, map, -, -⟩ := h
  have exposure : t.map.exposure = s.map.exposure := by rw [map]
  have cells : t.map.cells = s.map.cells := by rw [map]
  have coil : t.coil = s.coil := funext fun k => by rw [State.coil, cfg, State.coil]
  funext n
  simp only [Machine.takeCell, State.accumulator, State.cell, State.coilOfCell, State.geometry, cfg, exposure, cells, coil]

theorem SameRead.answerRead (h : SameRead s t l) (y : ExposureRead) : SameOf (answerRead s l y) (answerRead t l y) l := by
  refine ⟨(answerRead_get_same ..).trans (answerRead_get_same ..).symm, ?_⟩
  have linked (u : State) : (Machine.answerRead u l y).lnk.links.get l =
      LinkState.answer y.result y.payload (u.lnk.links.get l) := onLink_get_same ..
  rw [linked, linked, h.link]

theorem SameRead.takeTube (h : SameRead s t l) : SameOf (takeTube s l) (takeTube t l) l := by
  have take (x : ExposureRead) : x.take t = x.take s := by simp only [ExposureRead.take, h.takeCell]
  unfold Machine.takeTube
  rw [h.read]
  cases s.map.reads.get l with
  | none => exact ⟨h.read, h.link⟩
  | some x =>
    simp only [take]
    split
    · exact h.answerRead _
    · exact ⟨(setRead_get_same ..).trans (setRead_get_same ..).symm, h.link⟩

theorem SameRead.finishRead (h : SameRead s t l) : SameOf (finishRead s l) (finishRead t l) l := by
  have takeAll (x : ExposureRead) : x.takeAll t = x.takeAll s := by simp only [ExposureRead.takeAll, h.takeCell]
  unfold Machine.finishRead
  rw [h.read]
  cases s.map.reads.get l with
  | none => exact ⟨h.read, h.link⟩
  | some x =>
    simp only [takeAll]
    exact h.answerRead _

theorem OnlyReadOf.sameRead (h : OnlyReadOf s t l) {m : Link} (hm : m ≠ l) : SameRead s t m := by
  obtain ⟨blocks, map, -, reads, links⟩ := h
  exact ⟨by rw [blocks], map, reads m hm, links m hm⟩

theorem SameRead.trans {u : State} (hst : SameRead s t l) (htu : SameRead t u l) : SameRead s u l :=
  ⟨htu.cfg.trans hst.cfg, by rw [htu.map, hst.map], htu.read.trans hst.read, htu.link.trans hst.link⟩

/-- An action on the read of each link in turn does on each link what it does there alone. -/
theorem foldl_links_sameOf {f : State → Link → State} (frame : ∀ s l, OnlyReadOf s (f s l) l)
    (congr : ∀ {s t l}, SameRead s t l → SameOf (f s l) (f t l) l) (s : State) (l : Link) :
    SameOf (f s l) ([Link.a, Link.b, Link.e].foldl f s) l := by
  have ha := frame s .a
  have hb := frame (f s .a) .b
  have he := frame (f (f s .a) .b) .e
  simp only [List.foldl_cons, List.foldl_nil]
  cases l with
  | a =>
    exact ⟨(he.reads .a (by decide)).trans (hb.reads .a (by decide)),
      (he.links .a (by decide)).trans (hb.links .a (by decide))⟩
  | b =>
    obtain ⟨read, link⟩ := congr (ha.sameRead (m := .b) (by decide))
    exact ⟨(he.reads .b (by decide)).trans read, (he.links .b (by decide)).trans link⟩
  | e => exact congr ((ha.sameRead (m := .e) (by decide)).trans (hb.sameRead (by decide)))

/-- It changes the reads and the links' states alone. -/
theorem foldl_links_frame {f : State → Link → State} (frame : ∀ s l, OnlyReadOf s (f s l) l) (s : State) :
    let t := [Link.a, Link.b, Link.e].foldl f s
    t = { s with map := t.map, lnk := t.lnk } ∧ t.map = { s.map with reads := t.map.reads } ∧
      t.lnk = { s.lnk with links := t.lnk.links } := by
  have ha := frame s .a
  have hb := frame (f s .a) .b
  have he := frame (f (f s .a) .b) .e
  simp only [List.foldl_cons, List.foldl_nil]
  refine ⟨?_, ?_, ?_⟩
  · rw [he.blocks, hb.blocks, ha.blocks]
  · rw [he.map, hb.map, ha.map]
  · rw [he.lnk, hb.lnk, ha.lnk]

end

/-! ### A read begun -/

section
variable {s : State} {l : Link} {tag code : Byte} {cells : List Nat} {reply : ExposureReply}

theorem tubesOf_ne_nil (h : cells ≠ []) : tubesOf s cells ≠ [] := fun empty => by
  have := tubesOf_flatten s cells
  rw [empty] at this
  exact h this.symm

/-- What a read that passes its checks does with the first tube of its cells (R113, R118, R120). -/
theorem serve_beginRead {f : Owner} (hs : Free s l) (known : commandKnown code = true)
    (isOpen : commandNeedsRights code = false) (other : code ≠ acknowledgeCode)
    (hf : f s = beginRead l { reply := reply, left := tubesOf s cells, taken := [] } s)
    (rises : Table.rising s.geometry = true) (some : cells ≠ []) (ascending : cells.Pairwise (· < ·))
    (inUse : ∀ n ∈ cells, n < s.cellTotal) :
    ∃ first rest, PartedByTube s cells (first :: rest) ∧
      let x := tookTube s { reply := reply, left := first :: rest, taken := [] } first rest
      (rest = [] → ∃ result bytes, ReadReplies x result bytes ∧
        serve l tag code (Option.some f) s = replied s l tag code result bytes) ∧
      (rest ≠ [] → serve l tag code (Option.some f) s
        = heldOn (s.withMap { s.map with reads := s.map.reads.set l (Option.some x) }) l tag code) := by
  have parted := tubesOf_parted s rises ascending inUse
  cases htubes : tubesOf s cells with
  | nil => exact absurd htubes (tubesOf_ne_nil some)
  | cons first rest =>
    rw [htubes] at hf parted
    refine ⟨first, rest, parted, ?_⟩
    intro x
    have begun : beginRead l { reply := reply, left := first :: rest, taken := [] } s =
        if x.left.isEmpty then (s, .now x.result x.payload) else (setRead s l (Option.some x), .held) := by
      rw [beginRead, ExposureRead.take_cons]
    have left : x.left = rest := rfl
    have passed := linkRefusal_none_of_open s l code known other isOpen
    refine ⟨fun last => ⟨x.result, x.payload, readReplies_payload ?_, serve_now hs passed ?_⟩,
      fun more => serve_held hs passed ?_⟩
    · have : first ≠ [] := (parted.2.1 first List.mem_cons_self).1
      have taken : x.taken = first.map (takeCell s) := by rw [show x = _ from tookTube_eq ..]; rfl
      rw [taken]
      exact mt List.map_eq_nil_iff.1 this
    · rw [hf, begun, left, last]
      rfl
    · rw [hf, begun, left, if_neg (by simpa using more)]
      rfl

theorem length_coveredBy (limit stop first count : Nat) :
    (coveredBy limit stop first count).length = min (min count limit) (stop - first) := List.length_range'

theorem rangeOf_rangeCount {limit stop first count : Nat} (h : first < stop) :
    rangeOf first (rangeCount limit first (stop - 1) count) = coveredBy limit stop first count := by
  rw [rangeOf, rangeCount, coveredBy, show stop - 1 + 1 - first = stop - first by omega]

theorem cellRange_taken {first count : Nat} (h : first < s.cellTotal) (small : first ≤ 2047) (some : count ≠ 0) :
    cellRange first count s = .ok (rangeCount 32 first (s.cellTotal - 1) count) := by
  have passed : s.cellRefusal first = none := by
    simp [State.cellRefusal, State.inUse, h, small]
  simp only [cellRange, passed, if_neg some]

theorem coilsCovered_eq (s : State) (cells : List Nat) : coilsCovered s cells = (List.range 8).filterMap fun k =>
    if ∃ n ∈ cells, s.coilOfCell n = some k then (s.coil k).map fun c => (c.design, c.step) else none := by
  simp only [coilsCovered, List.any_eq_true, inCoil_iff]

end

/-- Settles O51: the first tube in the request's own action, and then link by link what a step takes. -/
theorem exposureReadsTakeTubes : Obligations.ExposureReadsTakeTubes := by
  unfold Obligations.ExposureReadsTakeTubes
  refine ⟨fun s l tag hs fit => ?_, fun s idle => ?_⟩
  · obtain ⟨rises, -, -, total⟩ := fit
    have geometry : Table.rising s.geometry = true := State.rising_geometry rises
    intro begins
    refine ⟨fun first count inUse some => ?_, fun n z c resume hn hz hc tubes elevations inside => ?_⟩
    · intro cells
      have hlength : cells.length = rangeCount 32 first (s.cellTotal - 1) count :=
        (congrArg List.length (rangeOf_rangeCount inUse)).symm.trans List.length_range'
      have hread : ownReadExposure l first count s = beginRead l
          { reply := .cells (decide (cells.length ≠ count)) (coilsCovered s cells), left := tubesOf s cells, taken := [] } s := by
        have below : first ≤ 2047 := by
          have : s.cellTotal ≤ 2048 := total
          omega
        rw [ownReadExposure, cellRange_taken inUse below (by omega)]
        simp only [rangeOf_rangeCount inUse, hlength, cells]
      rw [coilsCovered_eq] at hread
      obtain ⟨t, rest, parted, now, held⟩ := serve_beginRead (tag := tag) (code := 0x0F) hs rfl rfl (by decide) hread geometry
        (List.ne_nil_of_length_pos (by rw [length_coveredBy]; omega)) List.pairwise_lt_range' fun m hm => by
          have := List.mem_range'_1.1 hm
          omega
      refine ⟨t, rest, parted, fun last => ?_, fun more => congrArg Host.Outcome.next (held more)⟩
      obtain ⟨result, bytes, replies, served⟩ := now last
      exact ⟨result, bytes, replies, congrArg Host.Outcome.next served⟩
    · have hlist : zoneCells s z = zoneList s z := zoneCells_eq_zoneList s z
      have hread : ownZoneExposureTotal l n resume s = beginRead l
          { reply := .total n resume (if resume + 256 < (zoneList s z).length then some (resume + 256) else none)
              s.cfg.generation
            left := tubesOf s (((zoneList s z).drop resume).take 256), taken := [] } s := by
        rw [ownZoneExposureTotal, if_neg (by omega), hz, ← hlist]
        exact if_neg (by rw [hlist]; omega)
      have part : (((zoneList s z).drop resume).take 256).Sublist (zoneCells s z) := by
        rw [hlist]
        exact (List.take_sublist ..).trans (List.drop_sublist ..)
      obtain ⟨t, rest, parted, now, held⟩ := serve_beginRead (tag := tag) (code := 0x10) hs rfl rfl (by decide) hread geometry
        (List.ne_nil_of_length_pos (by rw [List.length_take, List.length_drop]; omega))
        ((zoneCells_ascending s z hc elevations).sublist part)
        fun m hm => zoneCells_inUse rises hc tubes elevations m (part.subset hm)
      refine ⟨t, rest, parted, fun last => ?_, fun more => congrArg Host.Outcome.next (held more)⟩
      obtain ⟨result, bytes, replies, served⟩ := now last
      exact ⟨result, bytes, replies, congrArg Host.Outcome.next served⟩
  · obtain ⟨blocks, map, lnk⟩ := foldl_links_frame takeTube_frame s
    refine ⟨takeTubes s, step_idle idle, blocks, map, lnk, fun l => ?_⟩
    obtain ⟨read, link⟩ := foldl_links_sameOf takeTube_frame SameRead.takeTube s l
    refine ⟨fun none => ?_, fun x tube rest hx left => ?_⟩
    · have still : takeTube s l = s := by simp [takeTube, none]
      rw [still] at read link
      exact ⟨read.trans none, link⟩
    · intro y
      obtain ⟨reply, _, taken⟩ := x
      cases left
      have took : takeTube s l = if rest.isEmpty then answerRead s l y else setRead s l (some y) := by
        simp only [takeTube, hx, ExposureRead.take_cons]
        rfl
      refine ⟨fun more => ?_, fun last => ?_⟩
      · rw [took, if_neg (by simpa using more)] at read link
        exact ⟨read.trans (setRead_get_same ..), link⟩
      · rw [took, last] at read link
        obtain ⟨ended, idle, answered⟩ := answerRead_answered s l y
        exact ⟨read.trans ended, fun h => link.trans (idle h), fun some q held => by
          obtain ⟨result, bytes, replies, queued⟩ := answered some q held
          exact ⟨result, bytes, replies, link.trans queued⟩⟩

end Sys2Proof.Machine

/-! ## Coil edits -/

namespace Sys2Proof.Machine

/-! ### Reads of exposure ended before the edit -/

theorem ReadAnswered.of_sameOf {s t u : State} {l : Link} {y : ExposureRead} (h : ReadAnswered s t l y)
    (same : SameOf t u l) : ReadAnswered s u l y := by
  obtain ⟨ended, idle, answered⟩ := h
  obtain ⟨read, link⟩ := same
  refine ⟨read.trans ended, fun none => link.trans (idle none), fun taken q held => ?_⟩
  obtain ⟨result, bytes, replies, queued⟩ := answered taken q held
  exact ⟨result, bytes, replies, link.trans queued⟩

/-- Each read in progress takes the tubes it has left and is answered (R5, R16). -/
theorem finishReads_link (s : State) (l : Link) :
    (s.map.reads.get l = none → (finishReads s).lnk.links.get l = s.lnk.links.get l) ∧
      ∀ x, s.map.reads.get l = some x → ReadAnswered s (finishReads s) l (tookTube s x x.left.flatten []) := by
  have same : SameOf (finishRead s l) (finishReads s) l := foldl_links_sameOf finishRead_frame SameRead.finishRead s l
  refine ⟨fun none => same.2.trans (by simp [finishRead, none]), fun x hx => ?_⟩
  have finished : finishRead s l = answerRead s l (tookTube s x x.left.flatten []) := by
    rw [← ExposureRead.takeAll_eq]
    simp only [finishRead, hx]
  rw [finished] at same
  exact (answerRead_answered s l _).of_sameOf same

theorem finishReads_reads (s : State) : (finishReads s).map.reads = { a := none, b := none, e := none } :=
  PerLink.ext_get _ _ fun l => by
    rw [finishReads_none]
    cases l <;> rfl

/-! ### Zones dropped -/

theorem AlarmRecord.toNormal_toNormal (r : AlarmRecord) : r.toNormal.toNormal = r.toNormal := rfl

/-- What is left of zone `n` when the zones of a list are reset (R124). -/
theorem foldl_resetZone_at (lost : List Nat) {x : AlarmUnit} (hx : x.Canonical) (n : Nat) :
    let y := lost.foldl resetZone x
    Table.get .reset y.records n = (if n ∈ lost then (Table.get .reset x.records n).toNormal else Table.get .reset x.records n) ∧
      Table.find y.windows n = (if n ∈ lost then none else Table.find x.windows n) ∧
      Table.find y.figures n = (if n ∈ lost then none else Table.find x.figures n) := by
  induction lost generalizing x with
  | nil => exact ⟨rfl, rfl, rfl⟩
  | cons m lost ih =>
    obtain ⟨records, windows, figures⟩ := ih (hx.resetZone m)
    obtain ⟨-, ⟨hrecords, -⟩, hwindows, hfigures⟩ := hx
    have record : Table.get .reset (resetZone x m).records n =
        if n = m then (Table.get .reset x.records m).toNormal else Table.get .reset x.records n := Table.get_put _ hrecords ..
    have window : Table.find (resetZone x m).windows n = if n = m then none else Table.find x.windows n :=
      Table.find_erase hwindows ..
    have figure : Table.find (resetZone x m).figures n = if n = m then none else Table.find x.figures n :=
      Table.find_erase hfigures ..
    simp only [List.foldl_cons, List.mem_cons]
    rw [records, windows, figures, record, window, figure]
    by_cases hm : n = m
    · subst hm
      simp only [if_true, true_or, AlarmRecord.toNormal_toNormal, ite_self, and_self]
    · simp only [hm, if_false, false_or, and_self]

theorem zoneLost_iff {coils : Table CoilDef} {z : Zone} : zoneLost coils z = false ↔
    ∃ c, Table.find coils z.coil = some c ∧ z.highTube < c.tubes ∧ z.highElevation < c.elevations := by
  unfold zoneLost
  cases Table.find coils z.coil with
  | none => simp
  | some c => simp

section
variable {coils : Table CoilDef} {x : AlarmUnit} {n : Nat}

theorem dropZones_frame (coils : Table CoilDef) (x : AlarmUnit) :
    let y := dropZones coils x
    y = { x with zones := y.zones, records := y.records, windows := y.windows, figures := y.figures } := by
  unfold dropZones
  dsimp only
  rw [foldl_resetZone_frame]

/-- The zones that a coil edit makes Undefined (R9). -/
def lostZones (coils : Table CoilDef) (x : AlarmUnit) : List Nat :=
  (x.zones.filter fun e => zoneLost coils e.2).map (·.1)

theorem mem_lostZones (h : Table.rising x.zones = true) :
    n ∈ lostZones coils x ↔ ∃ z, Table.find x.zones n = some z ∧ zoneLost coils z = true := by
  simp only [lostZones, List.mem_map, List.mem_filter, Prod.exists, Table.find_eq_some_iff h]
  constructor
  · rintro ⟨m, z, ⟨mem, lost⟩, rfl⟩
    exact ⟨z, mem, lost⟩
  · rintro ⟨z, mem, lost⟩
    exact ⟨n, z, ⟨mem, lost⟩, rfl⟩

theorem dropZones_zones (h : Table.rising x.zones = true) (n : Nat) (z : Zone) :
    Table.find (dropZones coils x).zones n = some z ↔ Table.find x.zones n = some z ∧ zoneLost coils z = false := by
  have zones : (dropZones coils x).zones = x.zones.filter fun e => !zoneLost coils e.2 := foldl_resetZone_zones ..
  rw [zones, Table.find_filter h, Bool.not_eq_true']

theorem dropZones_at (h : x.Canonical) (n : Nat) :
    let y := dropZones coils x
    Table.get .reset y.records n =
        (if n ∈ lostZones coils x then (Table.get .reset x.records n).toNormal else Table.get .reset x.records n) ∧
      Table.find y.windows n = (if n ∈ lostZones coils x then none else Table.find x.windows n) ∧
      Table.find y.figures n = (if n ∈ lostZones coils x then none else Table.find x.figures n) := by
  obtain ⟨zones, rest⟩ := h
  exact foldl_resetZone_at _ (x := { x with zones := _ }) ⟨Table.rising_filter zones _, rest⟩ n

/-- A zone that stands, or that there was none of, is not among the lost ones. -/
theorem not_mem_lostZones (h : Table.rising x.zones = true)
    (same : Table.find (dropZones coils x).zones n = Table.find x.zones n) : n ∉ lostZones coils x := by
  rw [mem_lostZones h]
  rintro ⟨z, hz, lost⟩
  have := ((dropZones_zones h n z).1 (same.trans hz)).2
  rw [lost] at this
  cases this

theorem mem_lostZones_of_dropped (h : Table.rising x.zones = true) (was : (Table.find x.zones n).isSome = true)
    (is : Table.find (dropZones coils x).zones n = none) : n ∈ lostZones coils x := by
  obtain ⟨z, hz⟩ := Option.isSome_iff_exists.1 was
  refine (mem_lostZones h).2 ⟨z, hz, ?_⟩
  by_contra stays
  have := (dropZones_zones h n z).2 ⟨hz, Bool.eq_false_iff.2 stays⟩
  rw [is] at this
  cases this

end

/-! ### Cells kept -/

section
variable {old new : Geometry}

theorem allKept_iff : allKept old new = true ↔ ∀ n, n < max (cellTotal old) (cellTotal new) → cellKept old new n = true := by
  simp only [allKept, List.all_eq_true, List.mem_range]

theorem get_restrict {α : Type} (keep : Nat → Bool) (b : α) (t : Table α) (n : Nat) :
    Table.get b (Table.restrict keep t) n = if keep n = true then Table.get b t n else b := by
  rw [Table.get, Table.find_restrict, Table.get]
  split <;> rfl

end

/-! ### The edit applied -/

section
variable {s : State} {k n : Nat} {change : Option CoilDef}

theorem applyCoilEdit_frz (k : Nat) (change : Option CoilDef) (s : State) :
    (applyCoilEdit k change s).frz =
      if allKept s.geometry (applyCoilEdit k change s).geometry then s.frz else s.frz.discard := rfl

/-- What stands of a cell that is kept (R7, R8). -/
theorem applyCoilEdit_kept (h : cellKept s.geometry (applyCoilEdit k change s).geometry n = true) :
    let t := applyCoilEdit k change s
    t.cell n = s.cell n ∧ t.peak n = s.peak n ∧ t.accumulator n = s.accumulator n ∧
      Table.find t.scn.scans n = Table.find s.scn.scans n ∧
      Table.find t.cfg.primaries n = Table.find s.cfg.primaries n :=
  ⟨(get_restrict _ CellRecord.blank _ _).trans (if_pos h), (Table.find_restrict ..).trans (if_pos h),
    (get_restrict _ 0 _ _).trans (if_pos h), (Table.find_restrict ..).trans (if_pos h),
    (Table.find_restrict ..).trans (if_pos h)⟩

/-- The blank state of a cell that is not kept (R8). -/
theorem applyCoilEdit_blank (h : cellKept s.geometry (applyCoilEdit k change s).geometry n = false) :
    let t := applyCoilEdit k change s
    t.cell n = .blank ∧ t.peak n = none ∧ t.accumulator n = 0 ∧ Table.find t.scn.scans n = none ∧
      Table.find t.cfg.primaries n = none ∧ Table.find t.cfg.alternates n = none := by
  have lost : ¬cellKept s.geometry (applyCoilEdit k change s).geometry n = true := by simp [h]
  exact ⟨(get_restrict _ CellRecord.blank _ _).trans (if_neg lost), (Table.find_restrict ..).trans (if_neg lost),
    (get_restrict _ 0 _ _).trans (if_neg lost), (Table.find_restrict ..).trans (if_neg lost),
    (Table.find_restrict ..).trans (if_neg lost),
    Table.find_eq_none_of_sublist (List.filter_sublist) ((Table.find_restrict ..).trans (if_neg lost))⟩

theorem applyCoilEdit_alternates (canonical : TablesCanonical s) (x : Alternate) :
    let t := applyCoilEdit k change s
    Table.find t.cfg.alternates n = some x ↔
      cellKept s.geometry t.geometry n = true ∧ Table.find s.cfg.alternates n = some x ∧ releaseCause t n x = none := by
  intro t
  have rises : Table.rising (Table.restrict (cellKept s.geometry t.geometry) s.cfg.alternates) = true :=
    Table.rising_restrict canonical.alternates _
  have stands : t.cfg.alternates = (Table.restrict (cellKept s.geometry t.geometry) s.cfg.alternates).filter
    fun y => (releaseCause t y.1 y.2).isNone := rfl
  rw [stands, Table.find_filter rises, Table.find_restrict, Option.isNone_iff_eq_none]
  by_cases kept : cellKept s.geometry t.geometry n = true
  · simp only [kept, if_true, true_and]
  · simp only [kept, Bool.false_eq_true, if_false, false_and, reduceCtorEq]

theorem applyCoilEdit_biases (canonical : TablesCanonical s) (j : Nat) :
    (applyCoilEdit k change s).coilBias j = if j = k then .reset else s.coilBias j := by
  have erased : (applyCoilEdit k change s).coilBias j = (Table.find (Table.erase s.scn.biases k) j).getD .reset := rfl
  rw [erased, Table.find_erase canonical.biases.1]
  split <;> rfl

theorem clampedIf_decide (p : Prop) [Decidable p] : clampedIf (decide p) = if p then .clamped else .ok := by
  by_cases h : p <;> simp [clampedIf, h]

/-- The coil that a Define Coil describes (R4). -/
theorem coilOf_eq (tubes elevations design step : Nat) : coilOf tubes elevations design step =
    { tubes := tubes, elevations := elevations, design := max 5000 (min 12000 design), step := max 50 (min 300 step) } := by
  rw [coilOf, clampNat_eq_max_min (by decide), clampNat_eq_max_min (by decide)]

end

/-! ### The checks of a coil edit -/

section
variable {s : State} {l : Link} {tag : Byte} {k tubes elevations design step : Nat} {r : Result}

theorem exec_defineCoil_refused (ready : Ready s l)
    (h : defineCoilRefusal k (coilOf tubes elevations design step) s = some r) :
    exec (.defineCoil l tag s.cfg.generation k tubes elevations design step) s = .next (editRefused s l tag 0x40 r) :=
  congrArg Host.Outcome.next (serve_edit_refused ready rfl (by decide) h)

theorem exec_defineCoil_taken (ready : Ready s l)
    (h : defineCoilRefusal k (coilOf tubes elevations design step) s = none) :
    exec (.defineCoil l tag s.cfg.generation k tubes elevations design step) s = .next
      (edited (applyCoilEdit k (some (coilOf tubes elevations design step)) (finishReads s)) l tag 0x40
        (clampedIf (decide ((coilOf tubes elevations design step).design ≠ design
          ∨ (coilOf tubes elevations design step).step ≠ step))) []) :=
  congrArg Host.Outcome.next (serve_edit_taken ready rfl (by decide) h)

/-- The checks of a Define Coil from the sizes on, in Stopped (R4). -/
theorem defineCoilRefusal_stopped (stopped : s.map.mapState = .stopped) (x : CoilDef) : defineCoilRefusal k x s =
    if k ≤ 7 ∧ 1 ≤ x.tubes ∧ x.tubes ≤ 64 ∧ 1 ≤ x.elevations ∧ x.elevations ≤ 8 then
      firstRefusal
        [ (s.frz.freeze.isSome, .busy), (s.scn.sweep.isSome, .scannerBusy),
          (decide (2048 < cellTotal (geometryOf (Table.insert s.cfg.coils k x))), .capacity) ]
    else some .badArgument := by
  rw [defineCoilRefusal, firstRefusal_of_false (decide_eq_false (not_not.2 stopped)), firstRefusal_or]
  split
  next fits => exact firstRefusal_of_false (by simp; omega) _ _
  next bad => exact firstRefusal_of_true (by simp; omega) _ _

/-- The checks of a Delete Coil after the Expected Generation (R6). -/
def deleteCoilRefusal (k : Nat) (s : State) : Option Result :=
  firstRefusal
    [ (decide (s.map.mapState ≠ .stopped), .wrongState), (decide (7 < k), .badArgument),
      ((s.coil k).isNone, .notConfigured), (s.frz.freeze.isSome, .busy), (s.scn.sweep.isSome, .scannerBusy) ]

theorem exec_deleteCoil_refused (ready : Ready s l) (h : deleteCoilRefusal k s = some r) :
    exec (.deleteCoil l tag s.cfg.generation k) s = .next (editRefused s l tag 0x41 r) :=
  congrArg Host.Outcome.next (serve_edit_refused ready rfl (by decide) h)

theorem exec_deleteCoil_taken (ready : Ready s l) (h : deleteCoilRefusal k s = none) :
    exec (.deleteCoil l tag s.cfg.generation k) s =
      .next (edited (applyCoilEdit k none (finishReads s)) l tag 0x41 .ok []) :=
  congrArg Host.Outcome.next (serve_edit_taken ready rfl (by decide) h)

theorem deleteCoilRefusal_defined (stopped : s.map.mapState = .stopped) (inside : k ≤ 7) (some : (s.coil k).isSome = true) :
    deleteCoilRefusal k s = firstRefusal [(s.frz.freeze.isSome, .busy), (s.scn.sweep.isSome, .scannerBusy)] := by
  rw [deleteCoilRefusal, firstRefusal_of_false (decide_eq_false (not_not.2 stopped)),
    firstRefusal_of_false (decide_eq_false (Nat.not_lt.2 inside)),
    firstRefusal_of_false (Option.isNone_eq_false_iff.2 some)]

end

/-- Settles O42: the checks in their order, the reads ended first, and each table after the edit. -/
theorem coilEditsKeepCells : Obligations.CoilEditsKeepCells := by
  unfold Obligations.CoilEditsKeepCells
  intro s l tag k ready g quiet deleted entry
  refine ⟨fun tubes elevations design step => ?_, fun running => ?_, fun stopped above => ?_,
    fun stopped inside undefined => ?_, fun stopped inside isDefined => ⟨fun freezing => ?_, fun noFreeze sweeping => ?_⟩,
    fun ⟨stopped, inside, noFreeze, noSweep⟩ isDefined => ?_, ?_, fun canonical change => ?_⟩
  · intro x sent sizes total
    have hx : coilOf tubes elevations design step = x := coilOf_eq ..
    have checked (stopped : s.map.mapState = .stopped) (inside : k ≤ 7) (fits : sizes) :
        defineCoilRefusal k (coilOf tubes elevations design step) s = firstRefusal
          [(s.frz.freeze.isSome, .busy), (s.scn.sweep.isSome, .scannerBusy), (decide (2048 < total), .capacity)] := by
      rw [defineCoilRefusal_stopped stopped, if_pos ⟨inside, fits⟩, hx]
    refine ⟨fun running => ?_, fun stopped bad => ?_, fun stopped inside fits => ⟨fun freezing => ?_, fun noFreeze sweeping => ?_⟩,
      fun ⟨stopped, inside, noFreeze, noSweep⟩ fits many => ?_, fun ⟨stopped, inside, noFreeze, noSweep⟩ fits few => ?_⟩
    · exact exec_defineCoil_refused ready (firstRefusal_of_true (decide_eq_true running) _ _)
    · refine exec_defineCoil_refused ready ?_
      rw [defineCoilRefusal_stopped stopped, if_neg]
      rintro ⟨inside, fits⟩
      exact bad.elim (Nat.not_lt.2 inside) fun out => out fits
    · refine exec_defineCoil_refused ready ?_
      rw [checked stopped inside fits, firstRefusal_of_true freezing]
    · refine exec_defineCoil_refused ready ?_
      rw [checked stopped inside fits, firstRefusal_of_false (by rw [noFreeze]; rfl), firstRefusal_of_true sweeping]
    · refine exec_defineCoil_refused ready ?_
      rw [checked stopped inside fits, firstRefusal_of_false (by rw [noFreeze]; rfl),
        firstRefusal_of_false (by rw [noSweep]; rfl), firstRefusal_of_true (decide_eq_true many)]
    · have taken := exec_defineCoil_taken (tag := tag) (k := k) (tubes := tubes) (elevations := elevations)
        (design := design) (step := step) ready (by
          rw [checked stopped inside fits, firstRefusal_of_false (by rw [noFreeze]; rfl),
            firstRefusal_of_false (by rw [noSweep]; rfl), firstRefusal_of_false (decide_eq_false (Nat.not_lt.2 few)),
            firstRefusal_nil])
      rw [clampedIf_decide, hx] at taken
      refine taken.trans (congrArg (fun r => Host.Outcome.next (edited _ l tag 0x40 r [])) ?_)
      by_cases exact : x.design = design ∧ x.step = step
      · rw [if_pos exact, if_neg (by simp [exact])]
      · rw [if_neg exact, if_pos (by rwa [← not_and_or])]
  · exact exec_deleteCoil_refused ready (firstRefusal_of_true (decide_eq_true running) _ _)
  · refine exec_deleteCoil_refused ready ?_
    rw [deleteCoilRefusal, firstRefusal_of_false (decide_eq_false (not_not.2 stopped)),
      firstRefusal_of_true (decide_eq_true above)]
  · refine exec_deleteCoil_refused ready ?_
    rw [deleteCoilRefusal, firstRefusal_of_false (decide_eq_false (not_not.2 stopped)),
      firstRefusal_of_false (decide_eq_false (Nat.not_lt.2 inside)), firstRefusal_of_true (by rw [undefined]; rfl)]
  · refine exec_deleteCoil_refused ready ?_
    rw [deleteCoilRefusal_defined stopped inside isDefined, firstRefusal_of_true freezing]
  · refine exec_deleteCoil_refused ready ?_
    rw [deleteCoilRefusal_defined stopped inside isDefined, firstRefusal_of_false (by rw [noFreeze]; rfl),
      firstRefusal_of_true sweeping]
  · refine exec_deleteCoil_taken ready ?_
    rw [deleteCoilRefusal_defined stopped inside isDefined, firstRefusal_of_false (by rw [noFreeze]; rfl),
      firstRefusal_of_false (by rw [noSweep]; rfl), firstRefusal_nil]
  · intro u
    obtain ⟨blocks, map, lnk⟩ := foldl_links_frame finishRead_frame s
    exact ⟨blocks, map.trans (congrArg (fun r => { s.map with reads := r }) (finishReads_reads s)), lnk,
      finishReads_link s⟩
  · intro t kept
    have halm : s.alm.Canonical := ((tablesCanonical_iff s).1 canonical).alm
    have hzone (n : Nat) : t.zone n = Table.find (dropZones t.cfg.coils s.alm).zones n := rfl
    refine ⟨rfl, rfl, rfl, rfl, ?_, ?_, Table.find_set canonical.coils k change, rfl, fun n => applyCoilEdit_kept,
      fun n => applyCoilEdit_blank, fun n x => applyCoilEdit_alternates canonical x, fun n cell => Table.find_filter canonical.sights ..,
      applyCoilEdit_biases canonical, fun n z => ?_, fun n was is => ?_, fun n same => ?_, fun all => ?_, fun lost => ?_⟩
    · exact dropZones_frame ..
    · rw [applyCoilEdit_frz]
      split <;> rfl
    · exact (dropZones_zones canonical.zones n z).trans (and_congr_right fun _ => zoneLost_iff)
    · have lost : n ∈ lostZones t.cfg.coils s.alm := mem_lostZones_of_dropped canonical.zones was is
      obtain ⟨record, window, figure⟩ := dropZones_at (coils := t.cfg.coils) halm n
      rw [if_pos lost] at record window figure
      exact ⟨record, congrArg (fun x => x.getD []) window, figure⟩
    · have stays : n ∉ lostZones t.cfg.coils s.alm := not_mem_lostZones canonical.zones same
      obtain ⟨record, window, figure⟩ := dropZones_at (coils := t.cfg.coils) halm n
      rw [if_neg stays] at record window figure
      exact ⟨record, congrArg (fun x => x.getD []) window, figure⟩
    · exact (applyCoilEdit_frz k change s).trans (if_pos (allKept_iff.2 all))
    · have notAll : ¬allKept s.geometry t.geometry = true := fun all => by
        obtain ⟨n, inside, out⟩ := lost
        have := allKept_iff.1 all n inside
        rw [show cellKept s.geometry t.geometry n = false from out] at this
        cases this
      have discarded : t.frz = s.frz.discard := (applyCoilEdit_frz k change s).trans (if_neg notAll)
      rw [discarded]
      exact ⟨rfl, rfl, rfl⟩

end Sys2Proof.Machine

/-! ## Freezes -/

namespace Sys2Proof.Machine

/-! ### Tube copies -/

/-- What copies write rises: the copies and the live peaks. -/
def CopiesRise (s : State) : Prop :=
  Table.rising s.frz.cellCopies = true ∧ Table.rising s.frz.peakCopies = true ∧ Table.rising s.map.peaks = true

/-- What a copy of the cells `ns` leaves of cell `n` (R144, R145). -/
def CellCopied (clearing : Bool) (s t : State) (ns : List Nat) (n : Nat) : Prop :=
  Table.get .blank t.frz.cellCopies n = (if n ∈ ns then s.cell n else Table.get .blank s.frz.cellCopies n) ∧
    Table.find t.frz.peakCopies n = (if n ∈ ns then s.peak n else Table.find s.frz.peakCopies n) ∧
    t.peak n = if n ∈ ns ∧ clearing = true then none else s.peak n

section
variable {clearing : Bool} {s : State}

theorem copyCell_cell (clearing : Bool) (s : State) (m n : Nat) : (copyCell clearing s m).cell n = s.cell n := by
  cases clearing <;> rfl

theorem copyCell_copies (clearing : Bool) (s : State) (m : Nat) :
    (copyCell clearing s m).frz = { s.frz with
      cellCopies := Table.put .blank s.frz.cellCopies m (s.cell m)
      peakCopies := Table.set s.frz.peakCopies m (s.peak m) } := by
  cases clearing <;> rfl

theorem copyCell_peaks (clearing : Bool) (s : State) (m : Nat) :
    (copyCell clearing s m).map = { s.map with
      peaks := if clearing then Table.erase s.map.peaks m else s.map.peaks } := by
  cases clearing <;> rfl

theorem CopiesRise.copyCell (h : CopiesRise s) (m : Nat) : CopiesRise (copyCell clearing s m) := by
  obtain ⟨cells, peakCopies, peaks⟩ := h
  rw [CopiesRise, copyCell_copies, copyCell_peaks]
  refine ⟨Table.rising_put _ cells _ _, Table.rising_set peakCopies _ _, ?_⟩
  cases clearing
  · exact peaks
  · exact Table.rising_erase peaks m

theorem cellCopied_copyCell (h : CopiesRise s) (m n : Nat) : CellCopied clearing s (copyCell clearing s m) [m] n := by
  obtain ⟨cells, peakCopies, peaks⟩ := h
  simp only [CellCopied, List.mem_singleton]
  refine ⟨?_, ?_, ?_⟩
  · rw [copyCell_copies, Table.get_put _ cells]
    by_cases hn : n = m
    · rw [if_pos hn, if_pos hn, hn]
    · rw [if_neg hn, if_neg hn]
  · rw [copyCell_copies, Table.find_set peakCopies]
    by_cases hn : n = m
    · rw [if_pos hn, if_pos hn, hn]
    · rw [if_neg hn, if_neg hn]
  · rw [State.peak, copyCell_peaks]
    cases clearing
    · simp [State.peak]
    · simp [Table.find_erase peaks, State.peak]

/-- A copy of distinct cells takes each as it stood (R144). -/
theorem foldl_copyCell {ns : List Nat} (once : ns.Nodup) (h : CopiesRise s) (n : Nat) :
    CellCopied clearing s (ns.foldl (copyCell clearing) s) ns n := by
  induction ns generalizing s with
  | nil => simp [CellCopied]
  | cons m ns ih =>
    obtain ⟨fresh, once⟩ := List.nodup_cons.1 once
    obtain ⟨cell, copy, peak⟩ := ih once (h.copyCell (clearing := clearing) m)
    obtain ⟨cell', copy', peak'⟩ := cellCopied_copyCell (clearing := clearing) h m n
    rw [copyCell_cell, cell'] at cell
    rw [copy', peak'] at copy
    rw [peak'] at peak
    rw [List.foldl_cons]
    refine ⟨cell.trans ?_, copy.trans ?_, peak.trans ?_⟩
    all_goals
      by_cases hn : n = m
      · subst hn
        simp [fresh]
      · simp [hn]

theorem foldl_copyCell_frame (clearing : Bool) (ns : List Nat) (s : State) :
    let t := ns.foldl (copyCell clearing) s
    t = { s with
      frz := { s.frz with cellCopies := t.frz.cellCopies, peakCopies := t.frz.peakCopies }
      map := { s.map with peaks := t.map.peaks } } := by
  induction ns generalizing s with
  | nil => rfl
  | cons m ns ih =>
    rw [List.foldl_cons, ih]
    cases clearing <;> rfl

end

/-! ### Completions -/

/-- What a completion of freeze `f` fills in (R146). -/
theorem completeFreeze_frame (f : Freeze) (s : State) :
    let t := completeFreeze f s
    t = { s with frz := t.frz, evt := t.evt, lnk := t.lnk } ∧ t.frz = (fillFrozen f s).frz ∧ t.evt = (fillFrozen f s).evt := by
  have frame := answerAllJoined_frame freezeCommands f.starter (completionPayload s) (fillFrozen f s)
  refine ⟨?_, ?_, ?_⟩
  · rw [completeFreeze, frame]
    rfl
  · rw [completeFreeze, frame]
    rfl
  · rw [completeFreeze, frame]
    rfl

theorem fillFrozen_evt (f : Freeze) (s : State) : (fillFrozen f s).evt = (appendEvent s
    { kind := .freezeTaken, subject := linkNumber f.starter, detail := if f.clearing then 1 else 0 }).evt :=
  appendEvent_evt_congr _ rfl rfl

theorem fillFrozen_cellCopies (f : Freeze) (s : State) (n : Nat) : Table.get .blank (fillFrozen f s).frz.cellCopies n =
    if n < s.cellTotal then Table.get .blank s.frz.cellCopies n else .blank := by
  have kept : Table.get .blank (fillFrozen f s).frz.cellCopies n = _ := get_restrict s.inUse .blank s.frz.cellCopies n
  simpa only [State.inUse, decide_eq_true_eq] using kept

theorem fillFrozen_peakCopies (f : Freeze) (s : State) (n : Nat) : Table.find (fillFrozen f s).frz.peakCopies n =
    if n < s.cellTotal then Table.find s.frz.peakCopies n else none := by
  have kept : Table.find (fillFrozen f s).frz.peakCopies n = _ := Table.find_restrict s.inUse s.frz.peakCopies n
  simpa only [State.inUse, decide_eq_true_eq] using kept

/-! ### Requests -/

section
variable {s : State} {l : Link} {tag : Byte}

/-- The two requests for a freeze, by the answer of their owner (R143). -/
theorem exec_freeze_of_owner {clearing : Bool} (hs : Free s l) (rights : clearing = true → s.holdsRights l = true) :
    let i : Instr := if clearing then .freezeAndClearPeaks l tag else .freezeMap l tag
    let code : Byte := if clearing then 0x35 else 0x21
    let owner := if clearing then ownFreezeAndClearPeaks l else ownFreezeMap l
    (∀ t, owner s = (t, .held) → exec i s = .next (heldOn t l tag code)) ∧
      ∀ t r p, owner s = (t, .now r p) → exec i s = .next (replied t l tag code r p) := by
  cases clearing with
  | false =>
    have passed := linkRefusal_none_of_open s l freezeMapCode rfl (by decide) rfl
    exact ⟨fun t h => congrArg Host.Outcome.next (serve_held hs passed h),
      fun t r p h => congrArg Host.Outcome.next (serve_now hs passed h)⟩
  | true =>
    have passed := linkRefusal_none_of_rights s l freezeAndClearPeaksCode rfl (by decide) (rights rfl)
    exact ⟨fun t h => congrArg Host.Outcome.next (serve_held hs passed h),
      fun t r p h => congrArg Host.Outcome.next (serve_now hs passed h)⟩

theorem freezeOwner_idle {clearing : Bool} (h : s.frz.freeze = none) :
    (if clearing then ownFreezeAndClearPeaks l else ownFreezeMap l) s = startFreeze l clearing s := by
  cases clearing
  · simp only [Bool.false_eq_true, if_false, ownFreezeMap, h]
  · simp only [if_true, ownFreezeAndClearPeaks, h]

theorem firstCoil_cons {k : Nat} {c : CoilDef} {rest : Table CoilDef} (h : s.cfg.coils = (k, c) :: rest) :
    firstCoil s.geometry = some k := by
  rw [State.geometry, h]
  rfl

theorem firstCoil_nil (h : s.cfg.coils = []) : firstCoil s.geometry = none := by
  rw [State.geometry, h]
  rfl

end

/-- Settles O50: the requests by the freeze in flight, the copy cell by cell, the completion part by part. -/
theorem freezesCopyAndComplete : Obligations.FreezesCopyAndComplete := by
  unfold Obligations.FreezesCopyAndComplete
  intro s l tag filled reply
  have filled_of (f : Freeze) (t : State) (frame : t = { s with frz := t.frz, evt := t.evt, lnk := t.lnk })
      (frz : t.frz = (fillFrozen f s).frz) (evt : t.evt = (fillFrozen f s).evt) : filled f t := by
    refine ⟨frame, by rw [frz]; rfl, by rw [frz]; rfl, by rw [frz]; rfl, fun n => ?_, fun n => ?_, ?_⟩
    · rw [frz]
      exact fillFrozen_cellCopies f s n
    · rw [frz]
      exact fillFrozen_peakCopies f s n
    · rw [evt, fillFrozen_evt]
      cases f.starter <;> rfl
  refine ⟨fun clearing hs rights => ?_, fun canonical f k u c hf hnext hc => ?_, fun f hf => ⟨fun walking => ?_, fun done => ⟨?_, ?_⟩⟩⟩
  · intro i code
    obtain ⟨held, now⟩ := exec_freeze_of_owner (tag := tag) hs rights
    refine ⟨fun idle => ⟨fun k c rest coils => held _ ?_, fun empty => ?_⟩, fun f hf => ⟨fun clears plain => ?_, fun joins => held _ ?_⟩⟩
    · simp only [freezeOwner_idle idle, startFreeze, firstCoil_cons coils]
    · refine ⟨fillFrozen { clearing := clearing, starter := l, next := none } s, filled_of _ _ rfl rfl rfl, rfl, now _ _ _ ?_⟩
      simp only [freezeOwner_idle idle, startFreeze, firstCoil_nil empty]
      rfl
    · subst clears
      refine now _ _ _ ?_
      simp only [if_true, ownFreezeAndClearPeaks, hf, plain, Bool.false_eq_true, if_false]
      rfl
    · cases clearing
      · simp only [Bool.false_eq_true, if_false, ownFreezeMap, hf]
      · have clearing : f.clearing = true := joins.resolve_left (by decide)
        simp only [if_true, ownFreezeAndClearPeaks, hf, clearing]
  · intro copied
    have rise : CopiesRise s := ⟨canonical.cellCopies.1, canonical.peakCopies, canonical.peaks⟩
    have hcopied (n : Nat) : n ∈ tubeCells s.geometry k c.elevations u ↔ copied n := by
      simp only [tubeCells, List.mem_range'_1, copied, cellNumber]
      constructor
      · rintro ⟨low, high⟩
        exact ⟨n - (baseCell s.geometry k + u * c.elevations), by omega, by omega⟩
      · rintro ⟨e, he, rfl⟩
        omega
    have once : (tubeCells s.geometry k c.elevations u).Nodup := List.nodup_range'
    have hframe := foldl_copyCell_frame f.clearing (tubeCells s.geometry k c.elevations u) s
    have hcells := foldl_copyCell (clearing := f.clearing) once rise
    generalize hv : (tubeCells s.geometry k c.elevations u).foldl (copyCell f.clearing) s = v at hframe hcells
    have hnextTube : tubeAfter s.geometry k u =
        if u + 1 < c.tubes then some (k, u + 1) else (coilAfter s.geometry k).map fun j => (j, 0) := by
      rw [tubeAfter, State.find_geometry, hc]
      rfl
    refine ⟨v.withFrz { v.frz with freeze := some { f with next := tubeAfter s.geometry k u } },
      congrArg Host.Outcome.next ?_, ?_, ?_, ?_, fun n hn => ?_, fun n hn => ?_⟩
    · simp only [tubeCopies, hf, hnext, hc, copyTube, hv]
    · rw [hframe]
      rfl
    · rw [hframe]
      rfl
    · rw [hframe, hnextTube]
      rfl
    · obtain ⟨cell, copy, peak⟩ := hcells n
      have mem := (hcopied n).2 hn
      rw [if_pos mem] at cell copy
      simp only [mem, true_and] at peak
      exact ⟨cell, copy, peak⟩
    · obtain ⟨cell, copy, peak⟩ := hcells n
      have other := mt (hcopied n).1 hn
      rw [if_neg other] at cell copy
      simp only [other, false_and, if_false] at peak
      exact ⟨cell, copy, peak⟩
  · refine congrArg Host.Outcome.next ?_
    rw [freezeCompletes, hf]
    exact if_neg (by simpa using Option.isSome_iff_ne_none.1 walking)
  · refine congrArg Host.Outcome.next ?_
    simp only [tubeCopies, hf, done]
  · have completes : exec .freezeCompletion s = .next (completeFreeze f s) := by
      refine congrArg Host.Outcome.next ?_
      rw [freezeCompletes, hf]
      exact if_pos (by rw [done]; rfl)
    obtain ⟨frame, frz, evt⟩ := completeFreeze_frame f s
    refine ⟨_, completes, filled_of f _ frame frz evt, ?_⟩
    have number : (completeFreeze f s).frz.freezeNumber = nextFreezeNumber s.frz.freezeNumber := by
      rw [frz]
      rfl
    rw [number]
    exact (joinedAnswered_answerAllJoined _ _ _ _).of_lnk_eq rfl

end Sys2Proof.Machine

/-! ## The bytes of the replies to reads -/

namespace Sys2Proof.Machine

section
variable (s : State)

/-! ### Coils, map and stores -/

theorem encCoil_eq (k : Nat) : encCoil s k = coilBytes s k := by
  unfold encCoil coilBytes
  cases s.coil k <;> rfl

theorem handingOff_iff : handingOff s = true ↔ s.map.pass.map Pass.phase = some .handingOff := by
  unfold handingOff
  cases s.map.pass <;> simp

theorem shownPass_eq : shownPass s =
    if s.map.pass.map Pass.phase = some .handingOff ∧ Config.handingOffInProgress = false then none else s.map.pass := by
  simp only [shownPass, Bool.and_eq_true, handingOff_iff, Bool.not_eq_true']

theorem shownLastPass_eq : shownLastPass s =
    if s.map.pass.map Pass.phase = some .handingOff ∧ Config.handingOffInProgress = true then none else s.map.lastPass := by
  simp only [shownLastPass, Bool.and_eq_true, handingOff_iff]

theorem ownReadMapStatus_eq : ownReadMapStatus s = (s, .now .ok (mapBytes s)) := by
  unfold ownReadMapStatus reads mapBytes
  dsimp only
  rw [shownPass_eq, shownLastPass_eq]
  rfl

theorem imageGeneration_eq : imageGeneration s.nvs =
    (if s.nvs.configValid then s.nvs.configStore else none).map fun x => x.contents.generation := by
  unfold imageGeneration
  split <;> rfl

theorem encOption_map {α β : Type} (f : β → List Byte) (g : α → β) (x : Option α) :
    encOption f (x.map g) = encOption (fun y => f (g y)) x := by
  cases x <;> rfl

theorem ownCheckStore_eq : ownCheckStore s = (s, .now .ok (storeBytes s)) := by
  unfold ownCheckStore reads storeBytes
  dsimp only
  rw [imageGeneration_eq, encOption_map]
  rfl

/-! ### Sweeps and sights -/

theorem ownReadSweepStatus_eq : ownReadSweepStatus s = (s, .now .ok (sweepBytes s)) := by
  have hkind : SweepKind.encode = fun k => match k with
      | .full => enc8 0
      | .coil k => enc8 1 ++ enc8 k := funext fun k => by cases k <;> rfl
  have hslot : encPendingSlot s.scn.pendingSlot = match s.scn.pendingSlot with
      | none => enc8 0
      | some .full => enc8 1
      | some (.coil k) => enc8 2 ++ enc8 k := by
    cases s.scn.pendingSlot with
    | none => rfl
    | some k => cases k <;> rfl
  unfold ownReadSweepStatus reads sweepBytes Sweep.encode LastSweep.encode
  dsimp only
  rw [hkind, hslot] <;> rfl

/-! ### Channels and slots -/

theorem encode_channel_eq (n : Nat) : (s.channel n).encode = channelBytes s n := by
  unfold Channel.encode channelBytes
  generalize s.channel n = c
  dsimp only
  by_cases unused : c.state = .unused
  · rw [if_pos unused, if_pos unused, unused]
    rfl
  · have lostRun : encOption enc8 (some c.lostRun) = [1] ++ enc8 c.lostRun := rfl
    rw [if_neg unused, if_neg unused, lostRun, ← List.append_assoc]
    rfl

theorem isSome_usableValue (n : Nat) : (s.channel n).usableValue.isSome = usableNow s n := by
  unfold Channel.usableValue usableNow
  cases (s.channel n).state <;> cases (s.channel n).lastGood <;> simp
  split <;> simp_all

theorem slotEnabled_eq (k : Nat) :
    slotEnabled s k = decide (∃ i ∈ List.range 8, (s.channel (k * 8 + i)).state ≠ .unused) := by
  rw [Bool.eq_iff_iff, slotEnabled, List.any_eq_true, decide_eq_true_iff]
  exact exists_congr fun i => and_congr_right fun _ => decide_eq_true_iff

/-! ### Anchors -/

theorem servingSource_eq (n : Nat) : servingSource s n =
    if (Table.find s.cfg.primaries n).any (usableNow s) then 0
    else if (Table.find s.cfg.alternates n).any fun x => usableNow s x.channel then 1 else 2 := by
  have measured : (measuredSource s n).isSome = (Table.find s.cfg.primaries n).any (usableNow s) := by
    unfold measuredSource
    cases Table.find s.cfg.primaries n with
    | none => rfl
    | some c => simp only [Option.isSome_map, isSome_usableValue, Option.any_some]
  have substituted : (substitutedSource s n).isSome =
      (Table.find s.cfg.alternates n).any fun x => usableNow s x.channel := by
    unfold substitutedSource
    cases Table.find s.cfg.alternates n with
    | none => rfl
    | some x => simp only [Option.isSome_map, isSome_usableValue, Option.any_some]
  rw [servingSource, measured, substituted]

theorem encAnchor_eq (n : Nat) : encAnchor s n = anchorBytes s n := by
  have service : encService s = fun c => enc8 (s.channel c).state.position ++ encBool (usableNow s c) :=
    funext fun c => by rw [encService, isSome_usableValue]
  unfold encAnchor anchorBytes
  rw [service, servingSource_eq]

/-! ### Cells -/

theorem code_quality_eq (q : Quality) : q.code = qualityCode q := by
  cases q <;> rfl

theorem encCell_eq (long : Bool) (n : Nat) (c : CellRecord) (p : Option Peak) :
    encCell long n c p = entryBytes long n c p := by
  have word : cellWord n c p = n + 2048 * qualityCode c.quality + if p.isSome then 32768 else 0 := by
    rw [cellWord, code_quality_eq, Nat.mul_comm]
  obtain ⟨value, quality, source, passStamp, heldAge⟩ := c
  unfold encCell encCellLong encCellShort entryBytes
  rw [word]
  cases long with
  | false =>
    rw [if_neg Bool.false_ne_true, if_neg Bool.false_ne_true, List.append_nil]
    cases quality <;> rfl
  | true =>
    rw [if_pos rfl, if_pos rfl, List.append_assoc]
    cases quality <;> rfl

/-! ### Zones and the hot tube list -/

theorem encode_hotEntry_eq (x : HotEntry) : x.encode =
    enc16 x.cell ++ encInt16 x.value ++ enc8 (qualityCode x.quality) ++ enc32 x.passStamp := by
  rw [HotEntry.encode, code_quality_eq]

theorem hotListPayload_eq (hot : List HotEntry) (pass : Nat) (threshold : Int) :
    hotListPayload hot pass threshold = hotListBytes hot pass threshold := by
  have entry : HotEntry.encode = fun x =>
      enc16 x.cell ++ encInt16 x.value ++ enc8 (qualityCode x.quality) ++ enc32 x.passStamp := funext encode_hotEntry_eq
  rw [hotListPayload, entry, hotListBytes]

theorem encode_record_eq (r : AlarmRecord) (figures : Option ZoneFigures) :
    r.encode ++ encOption ZoneFigures.encode figures = judgedBytes r figures := rfl

theorem encLiveZone_eq (n : Nat) : encLiveZone s n = zoneBytes s n := by
  unfold encLiveZone zoneBytes encZoneEntry
  cases hz : s.zone n with
  | none => simp [encBool]
  | some z =>
    have defined : encBool true ++ encOption Zone.encode (some z) = [1, 1] ++ definitionBytes z := rfl
    simp only [Option.isSome_some, if_true, ← encode_record_eq, defined, List.append_assoc]

theorem encFrozenZone_eq (h : FrozenHeader) (n : Nat) : encFrozenZone h n = frozenZoneBytes h n := by
  unfold encFrozenZone frozenZoneBytes encZoneEntry
  by_cases there : n ∈ h.zonesDefined
  · have absent : encBool true ++ encOption Zone.encode none = [1, 0] := rfl
    simp only [there, decide_true, if_true, ← encode_record_eq, absent, List.append_assoc]
  · simp only [there, decide_false, Bool.false_eq_true, if_false]
    rfl

end

end Sys2Proof.Machine

/-! ## What the reads answer -/

namespace Sys2Proof.Machine

/-! ### Ranged reads -/

/-- The result of a ranged read that covers a number (R41, R64, R99, R118, R141). -/
def rangedResult (limit stop first count : Nat) : Result :=
  if limit < count ∨ stop < first + count then .clamped else .ok

/-- The result of a ranged read of numbered records below `stop`. -/
def byNumberResult (limit stop first count : Nat) : Result :=
  if stop ≤ first ∨ count = 0 then .badArgument else rangedResult limit stop first count

/-- The result of a ranged read of cells. -/
def byCellResult (s : State) (first count : Nat) : Result :=
  if 2047 < first then .badArgument else if s.cellTotal ≤ first then .notConfigured
  else if count = 0 then .badArgument else rangedResult 32 s.cellTotal first count

/-- A result with the payload that stands behind it when it is no refusal. -/
def resultWith (r : Result) (payload : List Byte) : Result × List Byte := (r, if r.isRefusal then [] else payload)

section
variable {limit stop first count : Nat}

theorem isRefusal_rangedResult : (rangedResult limit stop first count).isRefusal = false := by
  unfold rangedResult
  split <;> rfl

theorem clampedIf_rangeCount (h : first < stop) :
    clampedIf (decide (rangeCount limit first (stop - 1) count ≠ count)) = rangedResult limit stop first count := by
  rw [clampedIf_decide, rangedResult, rangeCount]
  refine if_congr ?_ rfl rfl
  omega

theorem resultWith_ranged (payload : List Byte) : resultWith (rangedResult limit stop first count) payload =
    (rangedResult limit stop first count, payload) := by
  rw [resultWith, isRefusal_rangedResult]
  rfl

/-- A ranged read of numbered records, in the model's words and in the rules' (R41, R99, R141). -/
theorem byNumber_read (payload : List Nat → List Byte) :
    (if stop ≤ first ∨ count = 0 then (Result.badArgument, [])
      else (clampedIf (decide (rangeCount limit first (stop - 1) count ≠ count)),
        payload (rangeOf first (rangeCount limit first (stop - 1) count))))
      = resultWith (byNumberResult limit stop first count) (payload (coveredBy limit stop first count)) := by
  unfold byNumberResult
  split
  next => rfl
  next inside =>
    have below : first < stop := by omega
    rw [resultWith_ranged, clampedIf_rangeCount below, rangeOf_rangeCount below]

end

section
variable {s : State} {first count : Nat}

theorem cellRange_eq (first count : Nat) (s : State) : cellRange first count s =
    if (byCellResult s first count).isRefusal then .error (byCellResult s first count)
    else .ok (rangeCount 32 first (s.cellTotal - 1) count) := by
  unfold cellRange State.cellRefusal State.inUse byCellResult
  by_cases above : 2047 < first
  · simp only [if_pos above]
    rfl
  · by_cases unused : s.cellTotal ≤ first
    · simp only [if_neg above, if_pos unused, decide_eq_false (Nat.not_lt.2 unused), Bool.false_eq_true, if_false]
      rfl
    · simp only [if_neg above, if_neg unused, decide_eq_true (Nat.not_le.1 unused), if_true]
      by_cases empty : count = 0
      · simp only [if_pos empty]
        rfl
      · simp only [if_neg empty, isRefusal_rangedResult, Bool.false_eq_true, if_false]

theorem below_of_byCellResult (h : (byCellResult s first count).isRefusal = false) :
    first < s.cellTotal ∧ byCellResult s first count = rangedResult 32 s.cellTotal first count := by
  unfold byCellResult at h ⊢
  split at h
  · cases h
  next small =>
    split at h
    · cases h
    next below =>
      split at h
      · cases h
      next some => exact ⟨Nat.not_le.1 below, by rw [if_neg small, if_neg below, if_neg some]⟩

/-- A ranged read of cells (R64, R99). -/
theorem readCellRange_eq (first count : Nat) (payload : State → Nat → Nat → List Byte) (s : State) :
    readCellRange first count payload s =
      (s, .now (byCellResult s first count)
        (if (byCellResult s first count).isRefusal then []
          else payload s first (rangeCount 32 first (s.cellTotal - 1) count))) := by
  unfold readCellRange reads
  dsimp only
  rw [cellRange_eq]
  cases refused : (byCellResult s first count).isRefusal with
  | true => rfl
  | false =>
    obtain ⟨below, ranged⟩ := below_of_byCellResult refused
    simp only [Bool.false_eq_true, if_false, clampedIf_rangeCount below, ranged]

end

/-! ### The owners' answers -/

section
variable (s : State)

theorem ownReadCoilTable_eq : ownReadCoilTable s =
    (s, .now .ok ((List.range 8).flatMap (coilBytes s) ++ enc16 s.cellTotal ++ enc16 s.cfg.generation)) := by
  have hcoil : encCoil s = coilBytes s := funext (encCoil_eq s)
  rw [← hcoil]
  rfl

theorem ownReadModuleStatus_eq : ownReadModuleStatus s = (s, .now .ok ((List.range 12).flatMap (slotBytes s))) := by
  have hslot : slotBytes s = fun k => encBool (s.slot k).missing ++ encBool (s.slot k).fault
      ++ enc8 (s.slot k).lastOutcome.position ++ encBool (slotEnabled s k) :=
    funext fun k => by rw [slotEnabled_eq, slotBytes]
  rw [hslot]
  rfl

theorem ownReadParameters_eq : ownReadParameters s = (s, .now .ok (parameterBytes s)) := rfl

theorem ownReadChannel_eq (n : Nat) : ownReadChannel n s =
    (s, .now (if n < 96 then .ok else .badArgument)
      (if (if n < 96 then Result.ok else .badArgument).isRefusal then [] else channelBytes s n)) := by
  unfold ownReadChannel reads
  by_cases inside : n < 96
  · have : ¬channelCount ≤ n := Nat.not_le.2 inside
    simp only [if_neg this, if_pos inside, encode_channel_eq]
    rfl
  · have : channelCount ≤ n := Nat.not_lt.1 inside
    simp only [if_pos this, if_neg inside]
    rfl

theorem counterBytes_eq (n : Nat) :
    enc8 (s.channel n).state.position ++ (s.channel n).stats.encode = counterBytes s n := by
  simp only [ChannelStats.encode, counterBytes, List.append_assoc]

/-- Read Channel Statistics, by its clear option (R41). -/
theorem ownReadChannelStatistics_eq (l : Link) (first count : Nat) (clear : Bool) :
    ownReadChannelStatistics l first count clear s =
      if 96 ≤ first ∨ count = 0 then (s, .now .badArgument [])
      else if clear = true ∧ s.holdsRights l = false then (s, .now .notPermitted [])
      else
        (if clear then clearStatistics first (rangeCount 32 first 95 count) s else s,
          .now (rangedResult 32 96 first count) ((coveredBy 32 96 first count).flatMap (counterBytes s))) := by
  have hcounter : (fun k => enc8 (s.channel k).state.position ++ (s.channel k).stats.encode) = counterBytes s :=
    funext (counterBytes_eq s)
  unfold ownReadChannelStatistics
  by_cases refused : 96 ≤ first ∨ count = 0
  · rw [if_pos refused]
    exact if_pos refused
  · have below : first < 96 := by omega
    have hresult := clampedIf_rangeCount (limit := 32) (count := count) below
    have hrange := rangeOf_rangeCount (limit := 32) (count := count) below
    rw [if_neg refused, ← hresult, ← hrange, ← hcounter]
    refine (if_neg refused).trans (if_congr ?_ rfl rfl)
    rw [Bool.and_eq_true, Bool.not_eq_true']

theorem ownReadSights_eq (first count : Nat) : ownReadSights first count s =
    (s, .now
      (if 511 < first then .badArgument else if s.scn.sightCount ≤ first then .notConfigured
        else if count = 0 then .badArgument else rangedResult 128 s.scn.sightCount first count)
      (if (if 511 < first then Result.badArgument else if s.scn.sightCount ≤ first then .notConfigured
          else if count = 0 then .badArgument else rangedResult 128 s.scn.sightCount first count).isRefusal then []
        else (coveredBy 128 s.scn.sightCount first count).flatMap fun n =>
          encOption enc16 (Table.find s.scn.sights n))) := by
  unfold ownReadSights reads
  by_cases above : 511 < first
  · simp only [if_pos above]
    rfl
  · by_cases unused : s.scn.sightCount ≤ first
    · simp only [if_neg above, if_pos unused]
      rfl
    · by_cases empty : count = 0
      · simp only [if_neg above, if_neg unused, if_pos empty]
        rfl
      · have below : first < s.scn.sightCount := Nat.not_le.1 unused
        simp only [if_neg above, if_neg unused, if_neg empty, isRefusal_rangedResult, Bool.false_eq_true, if_false,
          clampedIf_rangeCount below, rangeOf_rangeCount below]
        rfl

/-! ### Sources -/

/-- The result of a frozen read that would answer `r` (R147). -/
def frozenResult (r : Result) : Result :=
  if s.frz.freeze.isSome then .busy else if s.frz.header.isNone then .notConfigured else r

theorem frozenRefusal_of_none (h : s.frz.header = none) : frozenRefusal s = some (frozenResult s .notConfigured) := by
  unfold frozenRefusal frozenResult
  rw [h]
  cases s.frz.freeze.isSome <;> rfl

theorem frozenRefusal_of_some {x : FrozenHeader} (h : s.frz.header = some x) :
    frozenRefusal s = if s.frz.freeze.isSome then some .busy else none := by
  unfold frozenRefusal
  rw [h]
  rfl

theorem frozenResult_of_some {x : FrozenHeader} (h : s.frz.header = some x) (r : Result) :
    frozenResult s r = if s.frz.freeze.isSome then .busy else r := by
  unfold frozenResult
  rw [h]
  rfl

theorem sourceOf_above {n : Nat} (h : 1 < n) : sourceOf n = none := by
  match n, h with
  | _ + 2, _ => rfl

/-! ### Zones and the hot tube list -/

theorem readZoneRange_eq (first count : Nat) (payload : List Nat → List Byte) :
    readZoneRange first count payload =
      resultWith (byNumberResult 8 32 first count) (payload (coveredBy 8 32 first count)) := by
  rw [← byNumber_read]
  rfl

theorem ownReadZones_live (first count : Nat) : ownReadZones 0 first count s =
    (s, .now (byNumberResult 8 32 first count)
      (if (byNumberResult 8 32 first count).isRefusal then []
        else (coveredBy 8 32 first count).flatMap (zoneBytes s) ++ encBool (decide (s.map.mapState = .mapping))
          ++ encBool s.alm.limitOutput ++ enc16 s.cfg.generation)) := by
  have hzone : encLiveZone s = zoneBytes s := funext (encLiveZone_eq s)
  unfold ownReadZones reads
  simp only [sourceOf, readZoneRange_eq, hzone]
  rfl

theorem ownReadZones_frozen_none (h : s.frz.header = none) (first count : Nat) :
    ownReadZones 1 first count s = (s, .now (frozenResult s .notConfigured) []) := by
  unfold ownReadZones reads
  simp only [sourceOf, frozenRefusal_of_none s h]

theorem ownReadZones_frozen {x : FrozenHeader} (h : s.frz.header = some x) (first count : Nat) :
    ownReadZones 1 first count s =
      (s, .now (frozenResult s (byNumberResult 8 32 first count))
        (if (frozenResult s (byNumberResult 8 32 first count)).isRefusal then []
          else (coveredBy 8 32 first count).flatMap (frozenZoneBytes x) ++ encBool (decide (x.mapState = .mapping))
            ++ encBool x.limitOutput ++ enc16 x.generation ++ enc32 x.freezeNumber)) := by
  have hzone : encFrozenZone = frozenZoneBytes := funext fun h => funext (encFrozenZone_eq h)
  unfold ownReadZones reads
  simp only [sourceOf, frozenRefusal_of_some s h, frozenResult_of_some s h, readZoneRange_eq, hzone, h]
  cases s.frz.freeze.isSome <;> rfl

theorem ownReadHotList_live : ownReadHotList 0 s =
    (s, .now .ok (hotListBytes s.alm.hotList s.alm.hotPass s.cfg.parameters.watchThreshold)) := by
  rw [← hotListPayload_eq]
  rfl

theorem ownReadHotList_frozen_none (h : s.frz.header = none) :
    ownReadHotList 1 s = (s, .now (frozenResult s .notConfigured) []) := by
  unfold ownReadHotList reads
  simp only [sourceOf, frozenRefusal_of_none s h]

theorem ownReadHotList_frozen {x : FrozenHeader} (h : s.frz.header = some x) : ownReadHotList 1 s =
    (s, .now (frozenResult s .ok)
      (if (frozenResult s .ok).isRefusal then []
        else hotListBytes x.hotList x.hotPass x.watchThreshold ++ enc32 x.freezeNumber ++ enc32 x.heaterClock)) := by
  unfold ownReadHotList reads
  simp only [sourceOf, frozenRefusal_of_some s h, frozenResult_of_some s h, hotListPayload_eq, freezePayload, h,
    List.append_assoc]
  cases s.frz.freeze.isSome <;> rfl

/-! ### Cells -/

/-- The result of a Read Cells of coil `k` (R148). -/
def cellsResult (k start count : Nat) : Result :=
  match s.coil k with
  | none => .notConfigured
  | some c =>
    if c.tubes * c.elevations ≤ start ∨ count = 0 then .badArgument
    else if 32 < count ∨ c.tubes * c.elevations < count then .clamped else .ok

theorem cellsPayload_eq {k : Nat} {c : CoilDef} (hc : s.coil k = some c) (start count : Nat) (header : List Byte)
    (cells : Table CellRecord) (peaks : Table Peak) :
    cellsPayload header (cellsRead (baseCell s.geometry k) c.dims.cells start (cellsTaken c.dims.cells count)) cells peaks
      = header ++ cellsBytes s k start count (Table.get .blank cells) (Table.find peaks) := by
  have htotal : c.dims.cells = c.tubes * c.elevations := rfl
  simp only [cellsPayload, cellsRead, longForm, List.length_map, List.length_range, List.flatMap_map, cellsBytes, hc,
    cellsTaken, encCell_eq, htotal, List.append_assoc]

theorem readCoilCells_eq (k start count : Nat) (header : List Byte) (cells : Table CellRecord) (peaks : Table Peak) :
    readCoilCells s k start count (fun ns => cellsPayload header ns cells peaks) =
      resultWith (cellsResult s k start count)
        (header ++ cellsBytes s k start count (Table.get .blank cells) (Table.find peaks)) := by
  unfold readCoilCells cellsResult
  cases hc : s.coil k with
  | none => rfl
  | some c =>
    have htotal : c.dims.cells = c.tubes * c.elevations := rfl
    simp only [cellsPayload_eq s hc]
    rw [htotal]
    by_cases past : c.tubes * c.elevations ≤ start
    · rw [if_pos past, if_pos (.inl past)]
      rfl
    · by_cases empty : count = 0
      · rw [if_neg past, if_pos empty, if_pos (.inr empty)]
        rfl
      · have some : ¬(c.tubes * c.elevations ≤ start ∨ count = 0) := not_or.2 ⟨past, empty⟩
        rw [if_neg past, if_neg empty, if_neg some, clampedIf_decide, cellsTaken]
        by_cases many : 32 < count ∨ c.tubes * c.elevations < count
        · rw [if_pos many, if_pos (by omega)]
          rfl
        · rw [if_neg many, if_neg (by omega)]
          rfl

theorem ownReadCells_bad {source k : Nat} (h : 1 < source ∨ 7 < k) (start count : Nat) :
    ownReadCells source k start count s = (s, .now .badArgument []) := by
  unfold ownReadCells reads
  by_cases above : 7 < k
  · simp only [if_pos above]
  · simp only [if_neg above, sourceOf_above (h.resolve_right above)]

theorem ownReadCells_live {k : Nat} (h : k ≤ 7) (start count : Nat) : ownReadCells 0 k start count s =
    (s, .now (cellsResult s k start count)
      (if (cellsResult s k start count).isRefusal then []
        else liveCellsHeader s ++ cellsBytes s k start count s.cell s.peak)) := by
  have below : ¬7 < k := Nat.not_lt.2 h
  unfold ownReadCells reads
  simp only [if_neg below, sourceOf, readCoilCells_eq]
  rfl

theorem ownReadCells_frozen_none {k : Nat} (h : k ≤ 7) (none : s.frz.header = none) (start count : Nat) :
    ownReadCells 1 k start count s = (s, .now (frozenResult s .notConfigured) []) := by
  have below : ¬7 < k := Nat.not_lt.2 h
  unfold ownReadCells reads
  simp only [if_neg below, sourceOf, frozenRefusal_of_none s none]

theorem ownReadCells_frozen {k : Nat} (h : k ≤ 7) {x : FrozenHeader} (hx : s.frz.header = some x) (start count : Nat) :
    ownReadCells 1 k start count s =
      (s, .now (frozenResult s (cellsResult s k start count))
        (if (frozenResult s (cellsResult s k start count)).isRefusal then []
          else frozenCellsHeader x
            ++ cellsBytes s k start count (Table.get .blank s.frz.cellCopies) (Table.find s.frz.peakCopies))) := by
  have below : ¬7 < k := Nat.not_lt.2 h
  unfold ownReadCells reads
  simp only [if_neg below, sourceOf, frozenRefusal_of_some s hx, frozenResult_of_some s hx, readCoilCells_eq, hx]
  cases s.frz.freeze.isSome <;> rfl

end

end Sys2Proof.Machine

/-! ## Reads that come to their reply tube by tube, and reads that clear -/

namespace Sys2Proof.Machine

/-! ### Reads of exposure -/

section
variable {s : State} {l : Link} {tag code : Byte} {cells : List Nat} {reply : ExposureReply} {first count : Nat}

/-- A read of exposure that nothing comes between is answered from its cells as they stand (R118, R120). -/
theorem serve_beginRead_comesTo {f : Owner} (hs : Free s l) (known : commandKnown code = true)
    (isOpen : commandNeedsRights code = false) (other : code ≠ acknowledgeCode)
    (hf : f s = beginRead l { reply := reply, left := tubesOf s cells, taken := [] } s) (some : cells ≠ [])
    (waiting : s.pending = []) (alone : ∀ k, s.map.reads.get k = none) :
    let y : ExposureRead := { reply := reply, left := [], taken := cells.map (takeCell s) }
    ∃ n, stepsTo n (serve l tag code (Option.some f) s) (replied s l tag code y.result y.payload) := by
  intro y
  have flat := tubesOf_flatten s cells
  have passed := linkRefusal_none_of_open s l code known other isOpen
  cases htubes : tubesOf s cells with
  | nil => exact absurd htubes (tubesOf_ne_nil some)
  | cons tube rest =>
    rw [htubes] at hf flat
    have took : ExposureRead.take s ⟨reply, tube :: rest, []⟩ = ⟨reply, rest, tube.map (takeCell s)⟩ := rfl
    cases rest with
    | nil =>
      have all : (⟨reply, [], tube.map (takeCell s)⟩ : ExposureRead) = y := by
        rw [show y = ⟨reply, [], cells.map (takeCell s)⟩ from rfl, ← flat, List.flatten_singleton]
      refine ⟨0, serve_now hs passed ?_⟩
      rw [hf, beginRead, took, all]
      rfl
    | cons next rest =>
      have all : ExposureRead.takeAll s ⟨reply, next :: rest, tube.map (takeCell s)⟩ = y := by
        rw [show y = ⟨reply, [], cells.map (takeCell s)⟩ from rfl, ← flat, List.flatten_cons, List.map_append]
        rfl
      have held := serve_held (tag := tag) hs passed (f := f) (by rw [hf, beginRead, took]; rfl)
      have steps := read_comes_to_reply (tag := tag) (code := code) hs.1 waiting alone
        ⟨reply, next :: rest, tube.map (takeCell s)⟩ (List.cons_ne_nil next rest)
      rw [all] at steps
      exact ⟨_, held ▸ steps⟩

theorem encode_takeCell (s : State) (n : Nat) : (takeCell s n).encode =
    enc32 (s.accumulator n) ++ encBool (decide (s.accumulator n = 4294967295))
      ++ enc16 (match (s.coilOfCell n).bind s.coil, (s.cell n).value with
        | some c, some v => multiplier c.design c.step v
        | _, _ => 0) := by
  unfold takeCell TakenCell.encode CellRecord.multiplier
  cases (s.coilOfCell n).bind s.coil <;> cases (s.cell n).value <;> rfl

/-- The bytes of a Read Exposure that has taken its cells as they stand (R118). -/
theorem cells_payload_eq (s : State) (cells : List Nat) (clamped : Bool) :
    ({ reply := .cells clamped (coilsCovered s cells), left := [], taken := cells.map (takeCell s) } : ExposureRead).payload
      = exposureBytes s cells := by
  have coils : ((coilsCovered s cells).flatMap fun c => enc16 c.1 ++ enc16 c.2) = (List.range 8).flatMap fun k =>
      match s.coil k with
      | some c => if ∃ n ∈ cells, s.coilOfCell n = some k then enc16 c.design ++ enc16 c.step else []
      | none => [] := by
    rw [coilsCovered_eq, List.filterMap_eq_flatMap_toList, List.flatMap_assoc]
    refine List.flatMap_congr fun k _ => ?_
    cases s.coil k with
    | none => split <;> rfl
    | some c => split <;> simp
  unfold ExposureRead.payload exposureBytes
  dsimp only
  rw [List.flatMap_map, coils]
  refine congrArg (· ++ _) (List.flatMap_congr fun n _ => encode_takeCell s n)

theorem ownReadExposure_refused (h : (byCellResult s first count).isRefusal = true) :
    ownReadExposure l first count s = (s, .now (byCellResult s first count) []) := by
  rw [ownReadExposure, cellRange_eq, if_pos h]
  rfl

theorem ownReadExposure_taken (h : (byCellResult s first count).isRefusal = false) :
    ownReadExposure l first count s = beginRead l
      { reply := .cells (decide (rangeCount 32 first (s.cellTotal - 1) count ≠ count))
          (coilsCovered s (coveredBy 32 s.cellTotal first count))
        left := tubesOf s (coveredBy 32 s.cellTotal first count), taken := [] } s := by
  rw [← rangeOf_rangeCount (below_of_byCellResult h).1, ownReadExposure, cellRange_eq, h]
  rfl

theorem coveredBy_ne_nil_of_byCellResult (h : (byCellResult s first count).isRefusal = false) :
    coveredBy 32 s.cellTotal first count ≠ [] := by
  obtain ⟨below, ranged⟩ := below_of_byCellResult h
  have some : count ≠ 0 := fun empty => by
    unfold byCellResult at h
    rw [if_neg (Nat.not_le.2 below), if_pos empty] at h
    split at h <;> cases h
  refine List.ne_nil_of_length_pos ?_
  rw [length_coveredBy]
  omega

/-- The bytes of a Zone Exposure Total that has taken its chunk as it stands, with its greatest cell (R120). -/
theorem total_payload_eq (s : State) (n resume : Nat) (list : List Nat) (some : (list.drop resume).take 256 ≠ []) :
    ∃ before greatest later, (list.drop resume).take 256 = before ++ greatest :: later ∧
      (∀ m ∈ before, s.accumulator m < s.accumulator greatest) ∧
      (∀ m ∈ later, s.accumulator m ≤ s.accumulator greatest) ∧
      ({ reply := .total n resume (if resume + 256 < list.length then Option.some (resume + 256) else none) s.cfg.generation
         left := [], taken := ((list.drop resume).take 256).map (takeCell s) } : ExposureRead).payload
        = totalBytes s n resume list greatest := by
  obtain ⟨g, ⟨front, back, parts, less, most⟩, cell⟩ := greatestCell_spec (mt List.map_eq_nil_iff.1 some)
  obtain ⟨before, tail, chunk, rfl, mapped⟩ := List.map_eq_append_iff.1 parts
  obtain ⟨greatest, later, rfl, rfl, rfl⟩ := List.map_eq_cons_iff.1 mapped
  refine ⟨before, greatest, later, chunk, fun m hm => less _ (List.mem_map_of_mem (f := takeCell s) hm),
    fun m hm => most _ (List.mem_map_of_mem (f := takeCell s) hm), ?_⟩
  unfold ExposureRead.payload totalBytes
  dsimp only
  rw [cell, List.length_map, List.map_map, List.filter_map, List.length_map]
  have next : encOption enc16 (if resume + 256 < list.length then Option.some (resume + 256) else none) =
      if resume + 256 < list.length then [1] ++ enc16 (resume + 256) else [0] := by
    split <;> rfl
  rw [next]
  rfl

theorem total_result_eq (n resume next generation : Nat) (p : Prop) [Decidable p] (taken : List TakenCell) :
    ({ reply := .total n resume (if p then some next else none) generation, left := [], taken := taken } :
      ExposureRead).result = if p then .incomplete else .ok := by
  unfold ExposureRead.result
  by_cases h : p
  · simp only [if_pos h, Option.isSome_some, if_true]
  · simp only [if_neg h, Option.isSome_none, Bool.false_eq_true, if_false]

theorem ownZoneExposureTotal_taken {n resume : Nat} {z : Zone} (hn : n ≤ 31) (hz : s.zone n = some z)
    (h : resume < (zoneList s z).length) : ownZoneExposureTotal l n resume s = beginRead l
      { reply := .total n resume (if resume + 256 < (zoneList s z).length then some (resume + 256) else none)
          s.cfg.generation
        left := tubesOf s (((zoneList s z).drop resume).take 256), taken := [] } s := by
  rw [ownZoneExposureTotal, if_neg (by omega), hz, ← zoneCells_eq_zoneList]
  exact if_neg (by rw [zoneCells_eq_zoneList]; omega)

end

/-! ### The clear options -/

/-- A table whose entries of some numbers are each changed, by a change that does nothing more when it comes again. -/
theorem Table.get_foldl_put {α : Type} [DecidableEq α] (b : α) {f : α → α} (idem : ∀ x, f (f x) = f x) (ns : List Nat)
    {t : Table α} (h : Table.rising t = true) (n : Nat) :
    Table.get b (ns.foldl (fun t k => Table.put b t k (f (Table.get b t k))) t) n =
      if n ∈ ns then f (Table.get b t n) else Table.get b t n := by
  induction ns generalizing t with
  | nil => rfl
  | cons k ns ih =>
    rw [List.foldl_cons, ih (Table.rising_put b h ..), Table.get_put b h]
    by_cases same : n = k
    · subst same
      simp [idem]
    · simp [same]

theorem foldl_setCoilBias (f : CoilBias → CoilBias) (ks : List Nat) (s : State) :
    ks.foldl (fun t k => t.setCoilBias k (f (t.coilBias k))) s =
      s.withScn { s.scn with
        biases := ks.foldl (fun t k => Table.put .reset t k (f (Table.get .reset t k))) s.scn.biases } := by
  induction ks generalizing s with
  | nil => rfl
  | cons k ks ih =>
    rw [List.foldl_cons, ih]
    rfl

theorem foldl_setChannel (f : Channel → Channel) (ns : List Nat) (s : State) :
    ns.foldl (fun t n => t.setChannel n (f (t.channel n))) s =
      s.withAcq { s.acq with
        channels := ns.foldl (fun t n => Table.put .unused t n (f (Table.get .unused t n))) s.acq.channels } := by
  induction ns generalizing s with
  | nil => rfl
  | cons n ns ih =>
    rw [List.foldl_cons, ih]
    rfl

theorem clearDisagreements_eq (s : State) : clearDisagreements s =
    s.withScn { s.scn with
      biases := (List.range 8).foldl
        (fun t k => Table.put .reset t k { Table.get .reset t k with disagreements := 0 }) s.scn.biases } :=
  foldl_setCoilBias (fun x => { x with disagreements := 0 }) (List.range 8) s

theorem clearStatistics_eq (first count : Nat) (s : State) : clearStatistics first count s =
    s.withAcq { s.acq with
      channels := (rangeOf first count).foldl
        (fun t n => Table.put .unused t n { Table.get .unused t n with stats := .zero }) s.acq.channels } :=
  foldl_setChannel (fun c => { c with stats := .zero }) (rangeOf first count) s

theorem frame_of_biases {s t : State} {b : Table CoilBias} (h : t = s.withScn { s.scn with biases := b }) :
    t = s.withScn { s.scn with biases := t.scn.biases } := by
  subst h
  rfl

theorem frame_of_channels {s t : State} {c : Table Channel} (h : t = s.withAcq { s.acq with channels := c }) :
    t = s.withAcq { s.acq with channels := t.acq.channels } := by
  subst h
  rfl

theorem coilBias_of_biases {s t : State} {b : Table CoilBias} (h : t = s.withScn { s.scn with biases := b }) (k : Nat) :
    t.coilBias k = Table.get .reset b k := by
  subst h
  rfl

theorem channel_of_channels {s t : State} {c : Table Channel} (h : t = s.withAcq { s.acq with channels := c }) (n : Nat) :
    t.channel n = Table.get .unused c n := by
  subst h
  rfl

theorem coilBias_clearDisagreements {s : State} (h : Table.rising s.scn.biases = true) (k : Nat) :
    (clearDisagreements s).coilBias k = if k < 8 then { s.coilBias k with disagreements := 0 } else s.coilBias k := by
  rw [coilBias_of_biases (clearDisagreements_eq s),
    Table.get_foldl_put .reset (f := fun x => { x with disagreements := 0 }) (fun _ => rfl) _ h k]
  exact if_congr List.mem_range rfl rfl

theorem channel_clearStatistics {s : State} (h : Table.rising s.acq.channels = true) (first count n : Nat) :
    (clearStatistics first count s).channel n =
      if n ∈ rangeOf first count then { s.channel n with stats := .zero } else s.channel n := by
  rw [channel_of_channels (clearStatistics_eq first count s),
    Table.get_foldl_put .unused (f := fun c => { c with stats := .zero }) (fun _ => rfl) _ h n]
  rfl

/-! ### Ranged reads, answered -/

section
variable (s : State) (l : Link) (first count : Nat)

/-- A ranged read of cells whose payload goes cell by cell (R64, R99). -/
theorem readCellRange_covered (payload : State → List Nat → List Byte) :
    readCellRange first count (fun s f n => payload s (rangeOf f n)) s =
      (s, .now (byCellResult s first count)
        (if (byCellResult s first count).isRefusal then [] else payload s (coveredBy 32 s.cellTotal first count))) := by
  rw [readCellRange_eq]
  cases taken : (byCellResult s first count).isRefusal with
  | true => rfl
  | false => simp only [Bool.false_eq_true, if_false, rangeOf_rangeCount (below_of_byCellResult taken).1]

theorem ownReadScanRecords_eq : ownReadScanRecords first count s =
    (s, .now (byCellResult s first count)
      (if (byCellResult s first count).isRefusal then []
        else (coveredBy 32 s.cellTotal first count).flatMap (scanBytes s))) :=
  readCellRange_covered s first count fun s cells => cells.flatMap (encScan s)

theorem ownReadAnchors_byCell_eq : ownReadAnchors (.byCell first count) s =
    (s, .now (byCellResult s first count)
      (if (byCellResult s first count).isRefusal then []
        else (coveredBy 32 s.cellTotal first count).flatMap (anchorBytes s) ++ enc16 s.cfg.generation)) := by
  have anchor : encAnchor s = anchorBytes s := funext (encAnchor_eq s)
  rw [← anchor]
  exact readCellRange_covered s first count fun s cells => cells.flatMap (encAnchor s) ++ enc16 s.cfg.generation

theorem ownReadAnchors_byChannel_eq : ownReadAnchors (.byChannel first count) s =
    (s, .now (byNumberResult 32 96 first count)
      (if (byNumberResult 32 96 first count).isRefusal then []
        else (coveredBy 32 96 first count).flatMap (assignedBytes s) ++ enc16 s.cfg.generation)) := by
  have answer := byNumber_read (limit := 32) (stop := 96) (first := first) (count := count)
    fun channels => channels.flatMap (assignedBytes s) ++ enc16 s.cfg.generation
  exact congrArg (fun x : Result × List Byte => (s, Answer.now x.1 x.2)) answer

theorem ownReadChannelStatistics_keeping : ownReadChannelStatistics l first count false s =
    (s, .now (byNumberResult 32 96 first count)
      (if (byNumberResult 32 96 first count).isRefusal then []
        else (coveredBy 32 96 first count).flatMap (counterBytes s))) := by
  rw [ownReadChannelStatistics_eq, byNumberResult]
  split
  · rfl
  · rw [if_neg (by simp), isRefusal_rangedResult]
    rfl

theorem ownReadChannelStatistics_unentitled (h : s.holdsRights l = false) :
    ownReadChannelStatistics l first count true s =
      (s, .now (if 96 ≤ first ∨ count = 0 then .badArgument else .notPermitted) []) := by
  rw [ownReadChannelStatistics_eq, if_pos (c := true = true ∧ _) ⟨rfl, h⟩]
  split <;> rfl

theorem ownReadChannelStatistics_clearing (h : s.holdsRights l = true) (below : first < 96) (some : 1 ≤ count) :
    ownReadChannelStatistics l first count true s =
      (clearStatistics first (rangeCount 32 first 95 count) s,
        .now (rangedResult 32 96 first count) ((coveredBy 32 96 first count).flatMap (counterBytes s))) := by
  rw [ownReadChannelStatistics_eq, if_neg (by omega), if_neg (by simp [h])]
  rfl

theorem ownReadBias_unentitled (h : s.holdsRights l = false) : ownReadBias l true s = (s, .now .notPermitted []) := by
  rw [ownReadBias, h]
  rfl

theorem ownReadBias_clearing (h : s.holdsRights l = true) :
    ownReadBias l true s = (clearDisagreements s, .now .ok (biasBytes s)) := by
  rw [ownReadBias, h]
  rfl

theorem ownReadZones_above {source : Nat} (h : 1 < source) :
    ownReadZones source first count s = (s, .now .badArgument []) := by
  simp only [ownReadZones, reads, sourceOf_above h]

theorem ownReadHotList_above {source : Nat} (h : 1 < source) : ownReadHotList source s = (s, .now .badArgument []) := by
  simp only [ownReadHotList, reads, sourceOf_above h]

end

end Sys2Proof.Machine

/-! ## Every read but Read Events -/

namespace Sys2Proof.Machine

/-- Settles O52: each read is answered by its owner's equation, and a read of exposure by the tubes that it takes. -/
theorem readsOnlyReply : Obligations.ReadsOnlyReply := by
  unfold Obligations.ReadsOnlyReply
  intro s l tag hs gives refuses comesTo generation ranged byNumber byCell cellRange frozen cells
  have opened {t : State} {code : Byte} {f : Owner} {r : Result} {p : List Byte} (known : commandKnown code = true)
      (isOpen : commandNeedsRights code = false) (other : code ≠ acknowledgeCode) (hf : f s = (t, .now r p)) :
      (Host.Outcome.next (serve l tag code (some f) s) : Host.Outcome State Fault Refusal)
        = .next (replied t l tag code r p) := congrArg Host.Outcome.next (serve_open hs known isOpen other hf)
  refine ⟨fun auto => ?_, ?_, ?_, ?_, ?_, ?_, ?_, fun rights => ?_, fun n => ?_, fun first count => ?_,
    fun first count => ?_, fun first count => ⟨?_, ?_, ?_, ?_⟩, fun n resume => ?_, fun first count => ⟨?_, ?_, ?_, ?_⟩,
    ?_, ?_, ?_, ?_, ?_, fun k start count below => ⟨?_, ?_, ?_⟩, fun none => ⟨?_, ?_⟩, fun rights tables => ⟨?_, ?_⟩⟩
  · refine opened rfl rfl (by decide) ?_
    have kept : ¬(s.eventLink l).autoClear = true := by
      rw [State.eventLink, auto]
      exact Bool.false_ne_true
    rw [ownReadStatus, if_neg kept, statusPayload_eq]
    rfl
  · exact opened rfl rfl (by decide) (ownReadCoilTable_eq s)
  · exact opened rfl rfl (by decide) (ownReadMapStatus_eq s)
  · exact opened rfl rfl (by decide) (ownReadModuleStatus_eq s)
  · exact opened rfl rfl (by decide) (ownReadSweepStatus_eq s)
  · exact opened rfl rfl (by decide) rfl
  · exact opened rfl rfl (by decide) (ownReadParameters_eq s)
  · exact congrArg Host.Outcome.next (serve_operating ⟨hs, rights⟩ rfl (by decide) (ownCheckStore_eq s))
  · exact opened rfl rfl (by decide) (ownReadChannel_eq s n)
  · exact opened rfl rfl (by decide) (ownReadChannelStatistics_keeping s l first count)
  · exact opened rfl rfl (by decide) (ownReadSights_eq s first count)
  · exact opened rfl rfl (by decide) (ownReadScanRecords_eq s first count)
  · exact opened rfl rfl (by decide) (ownReadAnchors_byCell_eq s first count)
  · exact opened rfl rfl (by decide) (ownReadAnchors_byChannel_eq s first count)
  · refine ⟨fun refused => opened rfl rfl (by decide) (ownReadExposure_refused refused),
      fun taken waiting alone => ?_⟩
    obtain ⟨below, result⟩ := below_of_byCellResult taken
    obtain ⟨n, steps⟩ := serve_beginRead_comesTo (tag := tag) (code := 0x0F) hs rfl rfl (by decide)
      (ownReadExposure_taken (l := l) taken) (coveredBy_ne_nil_of_byCellResult taken) waiting alone
    rw [cells_payload_eq] at steps
    refine ⟨n, _, rfl, ?_⟩
    have answered : ExposureRead.result ⟨.cells (decide (rangeCount 32 first (s.cellTotal - 1) count ≠ count))
        (coilsCovered s (coveredBy 32 s.cellTotal first count)), [],
        (coveredBy 32 s.cellTotal first count).map (takeCell s)⟩ = byCellResult s first count :=
      (clampedIf_rangeCount below).trans result.symm
    rw [answered] at steps
    exact steps
  · refine ⟨fun above => ?_, fun inside undefined => ?_, fun z inside defined => ⟨fun past => ?_, fun below => ?_⟩⟩
    · exact opened rfl rfl (by decide) (if_pos above)
    · refine opened rfl rfl (by decide) ?_
      rw [ownZoneExposureTotal, if_neg (Nat.not_lt.2 inside), undefined]
      rfl
    · refine opened rfl rfl (by decide) ?_
      rw [← zoneCells_eq_zoneList] at past
      rw [ownZoneExposureTotal, if_neg (Nat.not_lt.2 inside), defined]
      exact if_pos past
    · have some : ((zoneList s z).drop resume).take 256 ≠ [] :=
        List.ne_nil_of_length_pos (by rw [List.length_take, List.length_drop]; omega)
      obtain ⟨before, greatest, later, chunk, less, most, payload⟩ := total_payload_eq s n resume (zoneList s z) some
      refine ⟨before, greatest, later, chunk, less, most, fun waiting alone => ?_⟩
      obtain ⟨steps, come⟩ := serve_beginRead_comesTo (tag := tag) (code := 0x10) hs rfl rfl (by decide)
        (ownZoneExposureTotal_taken (l := l) inside defined below) some waiting alone
      rw [payload, total_result_eq] at come
      exact ⟨steps, _, rfl, come⟩
  · exact opened rfl rfl (by decide) (ownReadZones_live s first count)
  · exact fun absent => opened rfl rfl (by decide) (ownReadZones_frozen_none s absent first count)
  · exact fun h there => opened rfl rfl (by decide) (ownReadZones_frozen s there first count)
  · exact fun source above =>
      opened rfl rfl (by decide) (ownReadZones_above s first count above)
  · exact opened rfl rfl (by decide) (ownReadHotList_live s)
  · exact fun absent => opened rfl rfl (by decide) (ownReadHotList_frozen_none s absent)
  · exact fun h there => opened rfl rfl (by decide) (ownReadHotList_frozen s there)
  · exact fun source above => opened rfl rfl (by decide) (ownReadHotList_above s above)
  · exact fun source k start count above =>
      opened rfl rfl (by decide) (ownReadCells_bad s above start count)
  · exact opened rfl rfl (by decide) (ownReadCells_live s below start count)
  · exact fun absent =>
      opened rfl rfl (by decide) (ownReadCells_frozen_none s below absent start count)
  · exact fun h there =>
      opened rfl rfl (by decide) (ownReadCells_frozen s below there start count)
  · exact opened rfl rfl (by decide) (ownReadBias_unentitled s l none)
  · exact fun first count =>
      opened rfl rfl (by decide) (ownReadChannelStatistics_unentitled s l first count none)
  · exact ⟨clearDisagreements s,
      opened rfl rfl (by decide) (ownReadBias_clearing s l rights),
      frame_of_biases (clearDisagreements_eq s), coilBias_clearDisagreements tables.biases.1⟩
  · intro first count
    refine ⟨fun refused => opened rfl rfl (by decide) (if_pos refused),
      fun below some => ⟨clearStatistics first (rangeCount 32 first 95 count) s,
        opened rfl rfl (by decide)
          (ownReadChannelStatistics_clearing s l first count rights below some),
        frame_of_channels (clearStatistics_eq ..), fun n => ?_⟩⟩
    rw [channel_clearStatistics tables.channels.1, rangeOf_rangeCount below]

end Sys2Proof.Machine
